-- ==== Sys2Proof/Word.lean ====
section
/-! DEFINITION. The machine's words: bytes, 64-bit words, and the plainest field arithmetic on them.
A register that software reads and writes whole stays a bit vector; its fields are read and written with
`fld` and `setFld`, so that a reserved bit survives what does not name it. -/
namespace Sys2Proof

/-- A byte of memory. -/
abbrev Byte := BitVec 8
/-- A 64-bit register, special register or control-space register. -/
abbrev Word := BitVec 64
/-- A field of five bits that names a general register (R255). -/
abbrev GReg := BitVec 5
/-- A field of four bits that names a floating register (R255). -/
abbrev FReg := BitVec 4
/-- A field of three bits that names a decimal accumulator (R255). -/
abbrev DReg := BitVec 3

/-- Bits `[lo + n - 1 : lo]` of a word, as a number. -/
def fld (w : Word) (lo n : Nat) : Nat := (w.toNat / 2 ^ lo) % 2 ^ n

/-- Bit `i` of a word. -/
def bit (w : Word) (i : Nat) : Bool := w.getLsbD i

/-- The word with bits `[lo + n - 1 : lo]` set to `v` (its low `n` bits) and every other bit kept. -/
def setFld (w : Word) (lo n v : Nat) : Word :=
  let mask : Word := BitVec.ofNat 64 ((2 ^ n - 1) * 2 ^ lo)
  (w &&& ~~~mask) ||| (BitVec.ofNat 64 ((v % 2 ^ n) * 2 ^ lo) &&& mask)

/-- The word with bit `i` set to `b`. -/
def setBit (w : Word) (i : Nat) (b : Bool) : Word := setFld w i 1 b.toNat

/-- A word from a number, modulo 2^64. -/
def word (n : Nat) : Word := BitVec.ofNat 64 n

/-- `v` capped at `top`: a saturating field. -/
def sat (top v : Nat) : Nat := if v ≤ top then v else top

/-- The bytes of a number, least significant first: `n` of them. -/
def leBytes : Nat → Nat → List Byte
  | 0, _ => []
  | n + 1, v => BitVec.ofNat 8 v :: leBytes n (v / 256)

/-- The number that a list of bytes spells, least significant byte first. -/
def ofLe : List Byte → Nat
  | [] => 0
  | b :: bs => b.toNat + 256 * ofLe bs

/-- The bytes of a number, most significant first. -/
def beBytes (n v : Nat) : List Byte := (leBytes n v).reverse

/-- The number that a list of bytes spells, most significant byte first. -/
def ofBe (bs : List Byte) : Nat := ofLe bs.reverse

end Sys2Proof
end

