-- ==== Sys2Proof/Config.lean ====
section
/-! DEFINITION. What the spec fixes by number for the whole device, and the free values: constants with no body, for the values the spec leaves
open. Nothing can be proved of a free value, so a statement holds whatever it is. -/
namespace Sys2Proof

/-- Threads of the device (R12, R13). -/
def Config.threads : Nat := 3072
/-- Clusters of the device (R12). -/
def Config.clusters : Nat := 32
/-- Entries of the Yard's hold (R105). -/
def Config.holdSize : Nat := 16384
/-- The first address above HBM data (R297, R298). -/
def Config.hbmEnd : Nat := 0x1AD2748000
/-- The key store window (R297, R307). -/
def Config.keyBase : Nat := 0x600001000000
/-- The record buffer window (R297). -/
def Config.recBase : Nat := 0x600000000000
/-- Control space (R297). -/
def Config.ctlBase : Nat := 0xFF0000000000
/-- The bit-alias region (R297). -/
def Config.aliasBase : Nat := 0xFF0004000000
/-- Cluster store 0 (R297). -/
def Config.storeBase : Nat := 0x400000000000
/-- Code store 0 (R297). -/
def Config.codeBase : Nat := 0x500000000000

/-- Fuses (R469): KAMROVKH, OWNERKH (all zero when unprogrammed), DEVID as a number, the codes of the VCORE set points, the security version
floor at delivery, and the factory calibration (R485). Each device has its own. -/
opaque Config.kamrovKh : List Byte
opaque Config.ownerKh : List Byte
opaque Config.devId : Nat
opaque Config.vcoreCode : Nat → Nat
opaque Config.fuseFloor : Nat
opaque Config.calFactory : Nat → Int
/-- The identity public key, which FIPS 204 derives from IDSEED (R481, R487). -/
opaque Config.identityKey : List Byte
/-- ML-DSA-65 verification of FIPS 204 (R471, R477): public key, message, context, signature. DESIGN CHOICE, assumption 11. -/
opaque Config.mlDsaVerify : List Byte → List Byte → List Byte → List Byte → Bool
/-- The k-th hedged ML-DSA-65 signature that the device makes with its identity key (R353, R489): message, context. -/
opaque Config.mlDsaSign : Nat → List Byte → List Byte → List Byte
/-- AES-256-GCM decryption under CLASSKEY (R477): initialisation vector, additional data, ciphertext, tag; none when the tag does
not verify. -/
opaque Config.gcmOpen : List Byte → List Byte → List Byte → List Byte → Option (List Byte)
/-- The Kamrov default images of the control stores in Signal Box ROM (R477). -/
opaque Config.romCore : List Byte
opaque Config.romHub : List Byte

/-- Factory repair (R422, R469): whether the row or column group that a repair entry names is repaired by fuse already, and how many spares
of its kind the factory has used in the bank that a number names. -/
opaque Config.repairFused : Nat → Bool
opaque Config.sparesUsed : Nat → Nat

/-- The k-th free value drawn: a value the spec leaves unspecified (R170, R171, R217, R251). -/
opaque Config.freeWord : Nat → Word
/-- The k-th free value drawn, where it is the value of a decimal accumulator, sign and magnitude (R170). -/
opaque Config.freeDigits : Nat → Int
/-- What the read of an SRAM word finds when three or more errors, a poison mark counted as one, lie in it, and the spec gives no check
matrix to decide it (R408, R409). An even number: 0 clean, any other value uncorrectable. An odd number: 0 corrected, 1 poisoned, any
other value uncorrectable. -/
opaque Config.sramSyndrome : List Nat → Bool → Nat
/-- The error in byte i of the data of such a word where the code does not find it uncorrectable (R409). -/
opaque Config.sramMistake : List Nat → Bool → Nat → Byte

end Sys2Proof
end

