-- ==== Sys2Proof/Machine/Regs.lean ====
section
/-! DEFINITION. The registers of control space (R430-R432): for each, its place, and the place, access class and reset value of each
of its fields. A field's reset value that the spec leaves to the Timetable is here the value in force before any Timetable has
loaded: the default the spec gives it, and 0 where the spec gives none. A register is named by its LIVE OFFSET in control space. -/
namespace Sys2Proof.Machine

open Sys2Proof

/-- The access classes of R436, with the counters apart (R446, R449). -/
inductive Cls
  | rw | ro | w1c | w1s | wo | rwl | rwi | rwe | rwt | rws | ctr
  deriving DecidableEq, Repr

/-- A field of a register: bits [hi:lo], access class, reset value. Bits that no field names read 0 and ignore writes. -/
structure Fld where
  hi : Nat
  lo : Nat
  cls : Cls
  reset : Nat
  deriving DecidableEq, Repr

/-- CFG_ILK (R451). -/
def rCfgIlk : Nat := 0x0
/-- CFG_LOCKVIOL (R452). -/
def rCfgLockviol : Nat := 0x8
/-- CFG_LOCK (R453). -/
def rCfgLock : Nat := 0x10
/-- CFG_PENDING (R453). -/
def rCfgPending : Nat := 0x18
/-- CFG_BWUP (R454). -/
def rCfgBwup : Nat := 0x20
/-- CFG_BWDN (R454). -/
def rCfgBwdn : Nat := 0x28
/-- CFG_HOSTW (R455). -/
def rCfgHostw : Nat := 0x30
/-- CFG_IRT_SEL (R292). -/
def rCfgIrtSel : Nat := 0x100
/-- CFG_IRT_DATA (R292). -/
def rCfgIrtData : Nat := 0x108
/-- CFG_SWI (R292). -/
def rCfgSwi : Nat := 0x110
/-- CFG_GPIO (R566). -/
def rCfgGpio : Nat := 0x120

/-- The registers of the CFG_ block: offset in the block, and fields. -/
def regsCfg : List (Nat × List Fld) :=
  [(0x000, [⟨63, 48, .ctr, 0⟩, ⟨28, 6, .ro, 0⟩, ⟨3, 1, .ro, 0⟩, ⟨0, 0, .w1c, 0⟩]),  -- CFG_ILK: FAILS, OFFSET, CAUSE, INTERLOCK_FAIL
  (0x008, [⟨63, 48, .ctr, 0⟩, ⟨31, 29, .ro, 0⟩, ⟨28, 6, .ro, 0⟩, ⟨0, 0, .w1c, 0⟩]),  -- CFG_LOCKVIOL: COUNT, AGENT, OFFSET, LOCKVIOL
  (0x010, [⟨63, 0, .w1s, 0⟩]),  -- CFG_LOCK: LOCK
  (0x018, [⟨63, 0, .ro, 0⟩]),  -- CFG_PENDING: PENDING
  (0x020, [⟨63, 0, .rwt, 0⟩]),  -- CFG_BWUP: BW
  (0x028, [⟨63, 0, .rwt, 0⟩]),  -- CFG_BWDN: BW
  (0x030, [⟨63, 0, .rwl, 0⟩]),  -- CFG_HOSTW: HW
  (0x100, [⟨63, 63, .w1c, 0⟩, ⟨11, 0, .rw, 0⟩]),  -- CFG_IRT_SEL: ERR, SOURCE
  (0x108, [⟨31, 0, .rw, 0⟩]),  -- CFG_IRT_DATA: ROUTE
  (0x110, [⟨31, 0, .wo, 0⟩]),  -- CFG_SWI: SWI
  (0x120, [⟨63, 48, .ro, 0⟩, ⟨31, 16, .rw, 0⟩, ⟨15, 0, .rw, 0⟩])]  -- CFG_GPIO: IN, OE, OUT

/-- SNP_CTL (R456). -/
def rSnpCtl : Nat := 0x1000
/-- SNP_STAMP (R456). -/
def rSnpStamp : Nat := 0x1008
/-- SNP_TOD (R456). -/
def rSnpTod : Nat := 0x1010

/-- The registers of the SNP_ block: offset in the block, and fields. -/
def regsSnp : List (Nat × List Fld) :=
  [(0x000, [⟨1, 1, .w1c, 0⟩, ⟨0, 0, .w1s, 0⟩]),  -- SNP_CTL: DONE, GO
  (0x008, [⟨63, 0, .ro, 0⟩]),  -- SNP_STAMP: EPOCH
  (0x010, [⟨63, 0, .ro, 0⟩])]  -- SNP_TOD: TIME

/-- YRD_CTL (R114). -/
def rYrdCtl : Nat := 0x2000
/-- YRD_POLICY (R115). -/
def rYrdPolicy : Nat := 0x2008
/-- YRD_FORBID (R116). -/
def rYrdForbid : Nat := 0x2010
/-- YRD_PINCMD (R117). -/
def rYrdPincmd : Nat := 0x2018
/-- YRD_STATUS (R118). -/
def rYrdStatus : Nat := 0x2020
/-- YRD_ERR (R119). -/
def rYrdErr : Nat := 0x2028
/-- YRD_SNAP (R120). -/
def rYrdSnap : Nat := 0x2030
/-- YRD_LOG (R121). -/
def rYrdLog : Nat := 0x2038

/-- The registers of the YRD_ block: offset in the block, and fields. -/
def regsYrd : List (Nat × List Fld) :=
  [(0x000, [⟨28, 24, .rwe, 16⟩, ⟨19, 16, .rwe, 4⟩, ⟨13, 8, .rwe, 8⟩, ⟨2, 2, .rw, 0⟩, ⟨1, 1, .rwe, 1⟩, ⟨0, 0, .rwe, 1⟩]),  -- YRD_CTL: CONSIST_MAX, MARK_LIMIT, MAX_MIG, ERR_IE, LOAD_EN, AFF_EN
  (0x008, [⟨60, 49, .rwe, 32⟩, ⟨29, 24, .rwe, 4⟩, ⟨23, 16, .rwe, 30⟩, ⟨13, 8, .rwe, 4⟩, ⟨6, 0, .rwe, 75⟩]),  -- YRD_POLICY: MIN_POSTS, LOAD_EPOCHS, LOAD_PCT, AFF_EPOCHS, AFF_PCT
  (0x010, [⟨31, 0, .rwe, 0⟩]),  -- YRD_FORBID: FORBID
  (0x018, [⟨25, 24, .wo, 0⟩, ⟨20, 16, .wo, 0⟩, ⟨15, 0, .wo, 0⟩]),  -- YRD_PINCMD: OP, CLUSTER, TRACK
  (0x020, [⟨60, 55, .ro, 0⟩, ⟨54, 40, .ro, 0⟩, ⟨39, 33, .ro, 0⟩, ⟨32, 32, .ro, 0⟩, ⟨31, 0, .ro, 0⟩]),  -- YRD_STATUS: MOVING, HOLD, PINQ, PENDING, GEN
  (0x028, [⟨63, 32, .ctr, 0⟩, ⟨31, 16, .ctr, 0⟩, ⟨4, 4, .w1c, 0⟩, ⟨3, 3, .w1c, 0⟩, ⟨2, 2, .w1c, 0⟩, ⟨1, 1, .w1c, 0⟩, ⟨0, 0, .w1c, 0⟩]),  -- YRD_ERR: MOVES, ABANDONS, ABANDON, HOLD_FULL, PIN_FORBID, FORBID_REJ, PINQ_FULL
  (0x030, [⟨47, 12, .rw, 0⟩, ⟨9, 8, .rw, 0⟩, ⟨2, 2, .w1c, 0⟩, ⟨1, 1, .w1c, 0⟩, ⟨0, 0, .w1s, 0⟩]),  -- YRD_SNAP: ADDR, WHAT, ERR, DONE, GO
  (0x038, [⟨36, 32, .ro, 0⟩, ⟨31, 0, .ro, 0⟩])]  -- YRD_LOG: LOG2SIZE, TAIL

/-- QM_WT_CTL (R77). -/
def rQmWtCtl : Nat := 0x3040
/-- QM_WT_DROP (R78). -/
def rQmWtDrop : Nat := 0x3048
/-- QM_KQSEL (R73). -/
def rQmKqsel : Nat := 0x3080
/-- QM_KQIDX (R73). -/
def rQmKqidx : Nat := 0x3088
/-- QM_KDB (R73). -/
def rQmKdb : Nat := 0x3090

/-- The registers of the QM_ block: offset in the block, and fields. -/
def regsQm : List (Nat × List Fld) :=
  [(0x040, [⟨28, 28, .rwe, 1⟩, ⟨27, 16, .rwe, 0⟩, ⟨15, 0, .rwe, 19282⟩]),  -- QM_WT_CTL: QUIET_EN, ACK_COAL, UDP_PORT
  (0x048, [⟨63, 52, .ctr, 0⟩, ⟨51, 40, .ctr, 0⟩, ⟨39, 28, .ctr, 0⟩, ⟨27, 14, .ctr, 0⟩, ⟨13, 0, .ctr, 0⟩]),  -- QM_WT_DROP: OUTCOME, TRUNC, OTHER, HEADER, CHECK
  (0x080, [⟨63, 63, .w1c, 0⟩, ⟨62, 62, .w1s, 0⟩, ⟨12, 0, .rw, 0⟩]),  -- QM_KQSEL: ERR, RESET, QUEUE
  (0x088, [⟨63, 32, .ro, 0⟩, ⟨31, 0, .ro, 0⟩]),  -- QM_KQIDX: TAIL, HEAD
  (0x090, [⟨63, 32, .wo, 0⟩, ⟨13, 13, .wo, 0⟩, ⟨12, 0, .wo, 0⟩])]  -- QM_KDB: VALUE, IDX, QUEUE

/-- PE_DIR (R363). -/
def rPeDir : Nat := 0x4000
/-- PE_ERR (R363). -/
def rPeErr : Nat := 0x4008

/-- The registers of the PE_ block: offset in the block, and fields. -/
def regsPe : List (Nat × List Fld) :=
  [(0x000, [⟨63, 60, .ro, 0⟩, ⟨59, 56, .ro, 0⟩, ⟨47, 6, .ro, 0⟩]),  -- PE_DIR: PROBE, B, BASE
  (0x008, [⟨63, 48, .ctr, 0⟩, ⟨47, 32, .ctr, 0⟩, ⟨2, 2, .rw, 0⟩, ⟨0, 0, .w1c, 0⟩])]  -- PE_ERR: POISONED, INVALID, ERR_IE, LINE

/-- JNL_CTL (R358). -/
def rJnlCtl : Nat := 0x5000
/-- JNL_EPOCH (R359). -/
def rJnlEpoch : Nat := 0x5008
/-- JNL_COMMIT (R359). -/
def rJnlCommit : Nat := 0x5010
/-- JNL_SEQ (R359). -/
def rJnlSeq : Nat := 0x5018
/-- JNL_FILL (R360). -/
def rJnlFill : Nat := 0x5020
/-- JNL_QSEL (R361). -/
def rJnlQsel : Nat := 0x5028
/-- JNL_QDATA (R361). -/
def rJnlQdata : Nat := 0x5030
/-- JNL_ERR (R362). -/
def rJnlErr : Nat := 0x5038

/-- The registers of the JNL_ block: offset in the block, and fields. -/
def regsJnl : List (Nat × List Fld) :=
  [(0x000, [⟨25, 25, .rw, 0⟩, ⟨24, 24, .rwe, 1⟩, ⟨23, 8, .rwe, 1000⟩, ⟨6, 0, .rwe, 8⟩]),  -- JNL_CTL: ERR_IE, SIGN_EN, SIGN_MS, EPOCH_US
  (0x008, [⟨63, 0, .ro, 0⟩]),  -- JNL_EPOCH: EPOCH
  (0x010, [⟨63, 0, .ro, 0⟩]),  -- JNL_COMMIT: EPOCH
  (0x018, [⟨61, 0, .ro, 0⟩]),  -- JNL_SEQ: NEXT
  (0x020, [⟨40, 33, .ro, 0⟩, ⟨32, 32, .ro, 0⟩, ⟨18, 0, .ro, 0⟩]),  -- JNL_FILL: OPEN, PENDING, UNITS
  (0x028, [⟨63, 63, .w1c, 0⟩, ⟨12, 0, .rw, 0⟩]),  -- JNL_QSEL: ERR, QUEUE
  (0x030, [⟨31, 0, .rw, 0⟩]),  -- JNL_QDATA: SEL
  (0x038, [⟨63, 32, .ctr, 0⟩, ⟨31, 16, .ctr, 0⟩, ⟨3, 3, .w1c, 0⟩, ⟨2, 2, .w1c, 0⟩, ⟨1, 1, .w1c, 0⟩, ⟨0, 0, .w1c, 0⟩])]  -- JNL_ERR: SKIPS, SIGSKIP, SEAL_FULL, SIGN_SKIP, LOSSY_SKIP, BUF_FULL

/-- LL_CTL (R397). -/
def rLlCtl : Nat := 0x6000
/-- LL_STATUS (R398). -/
def rLlStatus : Nat := 0x6008
/-- LL_SPOOL (R399). -/
def rLlSpool : Nat := 0x6010
/-- LL_BYPASS (R400). -/
def rLlBypass : Nat := 0x6018
/-- LL_LUPDACCT (R401). -/
def rLlLupdacct : Nat := 0x6020
/-- LL_LUPD (R401). -/
def rLlLupd : Nat := 0x6028
/-- LL_ERR (R402). -/
def rLlErr : Nat := 0x6030

/-- The registers of the LL_ block: offset in the block, and fields. -/
def regsLl : List (Nat × List Fld) :=
  [(0x000, [⟨39, 32, .rwe, 50⟩, ⟨31, 24, .rwe, 128⟩, ⟨23, 8, .rwe, 20⟩, ⟨0, 0, .rw, 0⟩]),  -- LL_CTL: SEED_PCT, CUT_LEAD, LINKDOWN_MS, ERR_IE
  (0x008, [⟨63, 48, .ro, 0⟩, ⟨47, 32, .ro, 0⟩, ⟨31, 28, .ro, 0⟩, ⟨27, 24, .ro, 0⟩, ⟨23, 19, .ro, 0⟩, ⟨18, 15, .ro, 1⟩, ⟨14, 12, .ro, 0⟩, ⟨11, 11, .ro, 0⟩, ⟨10, 10, .ro, 0⟩, ⟨7, 4, .ro, 0⟩, ⟨3, 0, .ro, 0⟩]),  -- LL_STATUS: LIVE, ADOPTED, LEADER, RINGID, RSIZE, FMTCUR, STATE, SEEDING, PENDING, EASTFIB, WESTFIB
  (0x010, [⟨31, 0, .ro, 0⟩]),  -- LL_SPOOL: FREE
  (0x018, [⟨1, 1, .rwi, 0⟩, ⟨0, 0, .rwi, 0⟩]),  -- LL_BYPASS: LEAVE, FORCE
  (0x020, [⟨63, 0, .rw, 0⟩]),  -- LL_LUPDACCT: ACCOUNT
  (0x028, [⟨51, 51, .w1c, 0⟩, ⟨50, 50, .w1c, 0⟩, ⟨49, 48, .rw, 0⟩, ⟨47, 6, .rw, 0⟩, ⟨0, 0, .w1s, 0⟩]),  -- LL_LUPD: ERR, DONE, OP, ADDR, GO
  (0x030, [⟨63, 48, .ctr, 0⟩, ⟨47, 32, .ctr, 0⟩, ⟨13, 10, .ro, 0⟩, ⟨9, 9, .w1c, 0⟩, ⟨8, 8, .w1c, 0⟩, ⟨7, 7, .w1c, 0⟩, ⟨6, 6, .w1c, 0⟩, ⟨5, 5, .w1c, 0⟩, ⟨4, 4, .w1c, 0⟩, ⟨3, 3, .w1c, 0⟩, ⟨2, 2, .w1c, 0⟩, ⟨1, 1, .w1c, 0⟩, ⟨0, 0, .w1c, 0⟩])]  -- LL_ERR: CRC, RETRANS, JCAUSE, SHADOW_MISS, DIR_FULL, POOL_EMPTY, DIGEST, EPOCH_MISMATCH, TRANSFER_LOOP, FENCED, JOIN_REJ, LINKDOWN_W, LINKDOWN_E

/-- MIC_CTL (R423). -/
def rMicCtl : Nat := 0x7000
/-- MIC_STATUS (R424). -/
def rMicStatus : Nat := 0x7008
/-- MIC_UELOG (R425). -/
def rMicUelog : Nat := 0x7010
/-- MIC_RPTSEL (R426). -/
def rMicRptsel : Nat := 0x7018
/-- MIC_RPTDATA (R426). -/
def rMicRptdata : Nat := 0x7020
/-- MIC_HEAL (R427). -/
def rMicHeal : Nat := 0x7028
/-- MIC_ERASE (R428). -/
def rMicErase : Nat := 0x7030

/-- The registers of the MIC_ block: offset in the block, and fields. -/
def regsMic : List (Nat × List Fld) :=
  [(0x000, [⟨31, 24, .rwe, 1⟩, ⟨23, 16, .rwe, 24⟩, ⟨15, 8, .rwe, 16⟩, ⟨1, 1, .rwe, 1⟩, ⟨0, 0, .rw, 0⟩]),  -- MIC_CTL: SRAM_S, HBM_HOURS, REPEAT_THR, SCRUB_EN, ERR_IE
  (0x008, [⟨63, 40, .ctr, 0⟩, ⟨39, 24, .ctr, 0⟩, ⟨23, 8, .ctr, 0⟩, ⟨5, 5, .w1c, 0⟩, ⟨4, 4, .w1c, 0⟩, ⟨3, 3, .w1c, 0⟩, ⟨2, 2, .w1c, 0⟩, ⟨0, 0, .w1c, 0⟩]),  -- MIC_STATUS: CE, UE, TMRFIX, REPAIR_SKIP, EGRESS, TABLE_FULL, UEV, REPEAT_CE
  (0x010, [⟨63, 62, .ro, 0⟩, ⟨61, 58, .ro, 0⟩, ⟨47, 0, .ro, 0⟩]),  -- MIC_UELOG: SRC, DIE, ADDR
  (0x018, [⟨7, 0, .rw, 0⟩]),  -- MIC_RPTSEL: INDEX
  (0x020, [⟨63, 0, .ro, 0⟩]),  -- MIC_RPTDATA: ENTRY
  (0x028, [⟨47, 6, .rw, 0⟩, ⟨5, 4, .ro, 0⟩, ⟨2, 2, .w1c, 0⟩, ⟨1, 1, .w1c, 0⟩, ⟨0, 0, .w1s, 0⟩]),  -- MIC_HEAL: ADDR, RESULT, ERR, DONE, GO
  (0x030, [⟨16, 16, .ro, 0⟩, ⟨15, 0, .rwe, 65535⟩])]  -- MIC_ERASE: PENDING, DIE

/-- KEY_STATUS (R314). -/
def rKeyStatus : Nat := 0x8000
/-- KEY_FIRST (R314). -/
def rKeyFirst : Nat := 0x8008
/-- KEY_WBASE (R314). -/
def rKeyWbase : Nat := 0x8010

/-- The registers of the KEY_ block: offset in the block, and fields. -/
def regsKey : List (Nat × List Fld) :=
  [(0x000, [⟨63, 32, .ctr, 0⟩, ⟨31, 16, .ctr, 0⟩, ⟨3, 3, .rw, 0⟩, ⟨2, 2, .w1c, 0⟩, ⟨1, 1, .w1c, 0⟩, ⟨0, 0, .w1c, 0⟩]),  -- KEY_STATUS: REFUSALS, POISONED, ERR_IE, POISON_EV, REFUSE_EV, LATE_EV
  (0x008, [⟨63, 52, .ro, 0⟩, ⟨51, 50, .ro, 0⟩, ⟨47, 0, .ro, 0⟩]),  -- KEY_FIRST: GTID, ACCESS, ADDR
  (0x010, [⟨47, 0, .ro, 105553133043712⟩])]  -- KEY_WBASE: BASE

/-- CLK_TOD (R457). -/
def rClkTod : Nat := 0x9000
/-- CLK_TODADJ (R526). -/
def rClkTodadj : Nat := 0x9008
/-- CLK_TODSTEP (R526). -/
def rClkTodstep : Nat := 0x9010
/-- CLK_TMRSEL (R526). -/
def rClkTmrsel : Nat := 0x9018
/-- CLK_TMRDL (R526). -/
def rClkTmrdl : Nat := 0x9020
/-- CLK_TMRCTL (R526). -/
def rClkTmrctl : Nat := 0x9028

/-- The registers of the CLK_ block: offset in the block, and fields. -/
def regsClk : List (Nat × List Fld) :=
  [(0x000, [⟨63, 0, .ro, 0⟩]),  -- CLK_TOD: TIME
  (0x008, [⟨63, 63, .w1c, 0⟩, ⟨31, 0, .rw, 0⟩]),  -- CLK_TODADJ: STEPERR, FREQ
  (0x010, [⟨63, 0, .wo, 0⟩]),  -- CLK_TODSTEP: STEP
  (0x018, [⟨6, 0, .rw, 0⟩]),  -- CLK_TMRSEL: TIMER
  (0x020, [⟨63, 0, .rw, 0⟩]),  -- CLK_TMRDL: DEADLINE
  (0x028, [⟨63, 63, .rw, 0⟩, ⟨47, 0, .rw, 0⟩])]  -- CLK_TMRCTL: EN, PERIOD

/-- PWR_CTL (R538). -/
def rPwrCtl : Nat := 0xA000
/-- PWR_STATUS (R539). -/
def rPwrStatus : Nat := 0xA008
/-- PWR_CAUTION (R540). -/
def rPwrCaution : Nat := 0xA010
/-- PWR_RSTCMD (R533). -/
def rPwrRstcmd : Nat := 0xA018
/-- PWR_NAPEN (R541). -/
def rPwrNapen : Nat := 0xA020

/-- The registers of the PWR_ block: offset in the block, and fields. -/
def regsPwr : List (Nat × List Fld) :=
  [(0x000, [⟨2, 2, .rw, 0⟩, ⟨1, 0, .rwe, 0⟩]),  -- PWR_CTL: ERR_IE, STEP
  (0x008, [⟨63, 48, .ro, 750⟩, ⟨47, 16, .ro, 0⟩, ⟨8, 8, .w1c, 0⟩, ⟨4, 4, .ro, 0⟩, ⟨3, 3, .ro, 0⟩, ⟨2, 2, .ro, 0⟩, ⟨1, 0, .ro, 0⟩]),  -- PWR_STATUS: VSET, NAP, CAUTION_EV, PENDING, RSTBUSY, CAUTION, EFFSTEP
  (0x010, [⟨63, 32, .rws, 0⟩, ⟨31, 20, .rws, 0⟩, ⟨19, 16, .rws, 0⟩]),  -- PWR_CAUTION: COUNT, MINMV, RAIL
  (0x018, [⟨63, 32, .rwi, 0⟩, ⟨27, 16, .rwi, 0⟩, ⟨2, 0, .rwi, 0⟩]),  -- PWR_RSTCMD: CLMASK, GTID, OP
  (0x020, [⟨31, 0, .rw, 0⟩])]  -- PWR_NAPEN: NAPEN

/-- TRG_CTL (R513). -/
def rTrgCtl : Nat := 0xB000
/-- TRG_WIN (R514). -/
def rTrgWin : Nat := 0xB008
/-- TRG_STATUS (R515). -/
def rTrgStatus : Nat := 0xB010
/-- TRG_EXP_LIST (R516). -/
def rTrgExpList : Nat := 0xB018
/-- TRG_EXP_CTL (R516). -/
def rTrgExpCtl : Nat := 0xB020
/-- TRG_RPL_CTL (R517). -/
def rTrgRplCtl : Nat := 0xB028
/-- TRG_RPL_BASE (R517). -/
def rTrgRplBase : Nat := 0xB030
/-- TRG_RPL_STOPAT (R517). -/
def rTrgRplStopat : Nat := 0xB038

/-- The registers of the TRG_ block: offset in the block, and fields. -/
def regsTrg : List (Nat × List Fld) :=
  [(0x000, [⟨63, 32, .rw, 0⟩, ⟨25, 20, .rw, 0⟩, ⟨19, 12, .rw, 0⟩, ⟨3, 3, .rw, 0⟩, ⟨2, 2, .rw, 0⟩, ⟨1, 1, .w1s, 0⟩, ⟨0, 0, .w1s, 0⟩]),  -- TRG_CTL: CLUSTERS, TRIGMASK, POSTTRIG, ENABLE, ERR_IE, REARM, FREEZE
  (0x008, [⟨47, 30, .ro, 0⟩, ⟨20, 16, .ro, 0⟩, ⟨6, 0, .rw, 0⟩]),  -- TRG_WIN: BASE, SIZE, WINDOW
  (0x010, [⟨63, 56, .ctr, 0⟩, ⟨47, 40, .ro, 0⟩, ⟨39, 32, .ro, 0⟩, ⟨31, 24, .ro, 0⟩, ⟨23, 20, .ro, 0⟩, ⟨7, 7, .w1c, 0⟩, ⟨6, 6, .w1c, 0⟩, ⟨5, 5, .w1c, 0⟩, ⟨4, 4, .w1c, 0⟩, ⟨3, 3, .w1c, 0⟩, ⟨2, 0, .ro, 0⟩]),  -- TRG_STATUS: LATE, EFFWIN, TRIGLOCAL, TRIGCLUSTER, TRIGGER, RPLUE, DIVERGED, EXPERR, OVF, FREEZE_EV, STATE
  (0x018, [⟨63, 4, .rw, 0⟩]),  -- TRG_EXP_LIST: ADDR
  (0x020, [⟨63, 32, .rw, 0⟩, ⟨31, 21, .rw, 0⟩, ⟨20, 18, .ro, 0⟩, ⟨4, 4, .rw, 0⟩, ⟨3, 3, .rw, 0⟩, ⟨2, 2, .w1c, 0⟩, ⟨1, 1, .w1c, 0⟩, ⟨0, 0, .w1s, 0⟩]),  -- TRG_EXP_CTL: CLUSTERS, VECTOR, ECAUSE, CTRL, DIR, ERR, DONE, GO
  (0x028, [⟨63, 16, .ro, 0⟩, ⟨15, 13, .ro, 0⟩, ⟨12, 8, .rw, 0⟩, ⟨4, 4, .w1s, 0⟩, ⟨3, 3, .w1s, 0⟩, ⟨2, 2, .w1s, 0⟩, ⟨1, 1, .w1s, 0⟩, ⟨0, 0, .w1s, 0⟩]),  -- TRG_RPL_CTL: CCC, RSTATE, CLUSTER, EXIT, DUMP, GO, LOAD, ENTER
  (0x030, [⟨47, 12, .rw, 0⟩]),  -- TRG_RPL_BASE: ADDR
  (0x038, [⟨63, 63, .rw, 0⟩, ⟨47, 0, .rw, 0⟩])]  -- TRG_RPL_STOPAT: EN, STAMP

/-- SBX_PART (R490). -/
def rSbxPart : Nat := 0xC000
/-- SBX_DEVIDL (R490). -/
def rSbxDevidl : Nat := 0xC008
/-- SBX_DEVIDH (R490). -/
def rSbxDevidh : Nat := 0xC010
/-- SBX_START (R491). -/
def rSbxStart : Nat := 0xC018
/-- SBX_TTGEN (R491). -/
def rSbxTtgen : Nat := 0xC020
/-- SBX_FUSE (R491). -/
def rSbxFuse : Nat := 0xC028
/-- SBX_PPSIN (R553). -/
def rSbxPpsin : Nat := 0xC030
/-- SBX_RNG (R492). -/
def rSbxRng : Nat := 0xC038

/-- The registers of the SBX_ block: offset in the block, and fields. -/
def regsSbx : List (Nat × List Fld) :=
  [(0x000, [⟨31, 16, .ro, 38400⟩, ⟨15, 8, .ro, 161⟩]),  -- SBX_PART: PART, STEPPING
  (0x008, [⟨63, 0, .ro, 0⟩]),  -- SBX_DEVIDL: DEVID
  (0x010, [⟨63, 0, .ro, 0⟩]),  -- SBX_DEVIDH: DEVID
  (0x018, [⟨55, 48, .ro, 0⟩, ⟨47, 40, .ro, 0⟩, ⟨39, 36, .ro, 0⟩, ⟨35, 35, .ro, 0⟩, ⟨34, 34, .ro, 0⟩, ⟨33, 33, .ro, 0⟩, ⟨32, 32, .ro, 0⟩, ⟨31, 0, .ro, 0⟩]),  -- SBX_START: ERR1, ERR0, PHASE, FLASHREL, SLOT, CPATCH, CLPATCH, TIME
  (0x020, [⟨63, 0, .ro, 0⟩]),  -- SBX_TTGEN: TTGEN
  (0x028, [⟨7, 1, .ro, 0⟩, ⟨0, 0, .ro, 0⟩]),  -- SBX_FUSE: FLOOR, OWNER
  (0x030, [⟨63, 0, .ro, 0⟩]),  -- SBX_PPSIN: TIME
  (0x038, [⟨63, 0, .ro, 0⟩])]  -- SBX_RNG: VALUE

/-- CAL_ITEMi (R486), i = 0-511. -/
def rCalItem (i : Nat) : Nat := 0xD000 + 8 * i

/-- The registers of the CAL_ block: offset in the block, and fields. -/
def regsCal : List (Nat × List Fld) :=
  [(0x000, [⟨48, 48, .ro, 0⟩, ⟨47, 32, .ro, 0⟩, ⟨31, 16, .ro, 0⟩, ⟨15, 0, .ro, 0⟩])]  -- CAL_ITEMi: CLAMPED, EFFECTIVE, USER, FACTORY

/-- PCIx_MBX_ADDR (R458). -/
def rPciMbxAddr (n : Nat) : Nat := 0xE400 + 0x1000 * n
/-- PCIx_MBX_CMD (R458). -/
def rPciMbxCmd (n : Nat) : Nat := 0xE408 + 0x1000 * n

/-- The registers of the PCIx_ block: offset in the block, and fields. -/
def regsPci : List (Nat × List Fld) :=
  [(0x400, [⟨63, 12, .rw, 0⟩]),  -- PCIx_MBX_ADDR: ADDR
  (0x408, [⟨63, 32, .rw, 0⟩, ⟨26, 16, .rw, 0⟩, ⟨15, 8, .rw, 0⟩, ⟨5, 3, .ro, 0⟩, ⟨2, 2, .w1c, 0⟩, ⟨1, 1, .w1c, 0⟩, ⟨0, 0, .w1s, 0⟩])]  -- PCIx_MBX_CMD: TAG, VECTOR, CODE, ECAUSE, ERR, DONE, GO

/-- ETHp_STATUS (R554). -/
def rEthStatus (n : Nat) : Nat := 0x10000 + 0x1000 * n
/-- ETHp_DROP (R554). -/
def rEthDrop (n : Nat) : Nat := 0x10008 + 0x1000 * n
/-- ETHp_POISON (R554). -/
def rEthPoison (n : Nat) : Nat := 0x10010 + 0x1000 * n
/-- ETHp_FEC (R554). -/
def rEthFec (n : Nat) : Nat := 0x10018 + 0x1000 * n
/-- ETHp_PTPCTL (R555). -/
def rEthPtpctl (n : Nat) : Nat := 0x10020 + 0x1000 * n
/-- ETHp_PTPRXIDX (R555). -/
def rEthPtprxidx (n : Nat) : Nat := 0x10028 + 0x1000 * n
/-- ETHp_PTPTXADDR (R556). -/
def rEthPtptxaddr (n : Nat) : Nat := 0x10030 + 0x1000 * n
/-- ETHp_PTPTXCMD (R556). -/
def rEthPtptxcmd (n : Nat) : Nat := 0x10038 + 0x1000 * n
/-- ETHp_PTPTXTS (R556). -/
def rEthPtptxts (n : Nat) : Nat := 0x10040 + 0x1000 * n

/-- The registers of the ETHp_ block: offset in the block, and fields. -/
def regsEth : List (Nat × List Fld) :=
  [(0x000, [⟨15, 12, .ro, 0⟩, ⟨9, 9, .ro, 0⟩, ⟨8, 8, .ro, 0⟩, ⟨7, 7, .ro, 0⟩, ⟨2, 0, .ro, 0⟩]),  -- ETHp_STATUS: LANES, FEC_LOCK, AN_DONE, LINK, MODE
  (0x008, [⟨63, 52, .ctr, 0⟩, ⟨51, 40, .ctr, 0⟩, ⟨39, 28, .ctr, 0⟩, ⟨27, 14, .ctr, 0⟩, ⟨13, 0, .ctr, 0⟩]),  -- ETHp_DROP: OUTCOME, TRUNC, OTHER, HEADER, CHECK
  (0x010, [⟨31, 0, .ctr, 0⟩]),  -- ETHp_POISON: FRAMES
  (0x018, [⟨63, 32, .ctr, 0⟩, ⟨31, 0, .ctr, 0⟩]),  -- ETHp_FEC: CORRECTED, UNCORR
  (0x020, [⟨47, 14, .rw, 0⟩, ⟨2, 2, .rw, 0⟩, ⟨0, 0, .rw, 0⟩]),  -- ETHp_PTPCTL: BASE, IE, EN
  (0x028, [⟨63, 32, .ro, 0⟩, ⟨31, 0, .rw, 0⟩]),  -- ETHp_PTPRXIDX: TAIL, HEAD
  (0x030, [⟨47, 3, .rw, 0⟩]),  -- ETHp_PTPTXADDR: ADDR
  (0x038, [⟨63, 56, .rw, 0⟩, ⟨55, 48, .rw, 0⟩, ⟨3, 3, .w1c, 0⟩, ⟨2, 2, .rw, 0⟩, ⟨1, 1, .w1c, 0⟩, ⟨0, 0, .w1s, 0⟩]),  -- ETHp_PTPTXCMD: TSOFF, LEN, ERR, ONESTEP, DONE, GO
  (0x040, [⟨63, 0, .ro, 0⟩])]  -- ETHp_PTPTXTS: TIME

/-- HBMh_STATUS (R429). -/
def rHbmStatus (n : Nat) : Nat := 0x18000 + 0x1000 * n
/-- HBMh_ERR (R429). -/
def rHbmErr (n : Nat) : Nat := 0x18008 + 0x1000 * n
/-- HBMh_RDLINES (R429). -/
def rHbmRdlines (n : Nat) : Nat := 0x18010 + 0x1000 * n
/-- HBMh_WRLINES (R429). -/
def rHbmWrlines (n : Nat) : Nat := 0x18018 + 0x1000 * n

/-- The registers of the HBMh_ block: offset in the block, and fields. -/
def regsHbm : List (Nat × List Fld) :=
  [(0x000, [⟨39, 32, .ro, 0⟩, ⟨31, 24, .ro, 0⟩, ⟨23, 20, .ro, 15⟩, ⟨1, 1, .ro, 0⟩, ⟨0, 0, .ro, 0⟩]),  -- HBMh_STATUS: TEMP, SPPR, ERASED, SELFREF, TRAINED
  (0x008, [⟨63, 32, .ctr, 0⟩, ⟨31, 16, .ctr, 0⟩, ⟨15, 0, .ctr, 0⟩]),  -- HBMh_ERR: CE, UE, POISONRD
  (0x010, [⟨63, 0, .ctr, 0⟩]),  -- HBMh_RDLINES: LINES
  (0x018, [⟨63, 0, .ctr, 0⟩])]  -- HBMh_WRLINES: LINES

/-- CLnn_LOCK (R294). -/
def rClLock (n : Nat) : Nat := 0x20180 + 0x1000 * n
/-- CLnn_LOCKADDR (R294). -/
def rClLockaddr (n : Nat) : Nat := 0x20188 + 0x1000 * n
/-- CLnn_SPLIT (R303). -/
def rClSplit (n : Nat) : Nat := 0x20190 + 0x1000 * n

/-- The registers of the CLnn_ block: offset in the block, and fields. -/
def regsCl : List (Nat × List Fld) :=
  [(0x180, [⟨63, 48, .ctr, 0⟩, ⟨39, 32, .ro, 0⟩, ⟨31, 31, .w1c, 0⟩, ⟨30, 28, .ro, 0⟩, ⟨27, 27, .ro, 0⟩, ⟨26, 26, .ro, 0⟩, ⟨6, 0, .ro, 0⟩]),  -- CLnn_LOCK: COUNT, VECTOR, VALID, CAUSE, WORLD, INTR, LOCAL
  (0x188, [⟨47, 0, .ro, 0⟩]),  -- CLnn_LOCKADDR: ADDR
  (0x190, [⟨21, 8, .ro, 0⟩, ⟨5, 0, .ro, 0⟩])]  -- CLnn_SPLIT: SETS, SCRATCH

/-- The register tables of a block slot (R431). -/
def slotRegs (slot : Nat) : List (Nat × List Fld) :=
  if slot = 0 then regsCfg else if slot = 1 then regsSnp else if slot = 2 then regsYrd else if slot = 3 then regsQm
  else if slot = 4 then regsPe else if slot = 5 then regsJnl else if slot = 6 then regsLl else if slot = 7 then regsMic
  else if slot = 8 then regsKey else if slot = 9 then regsClk else if slot = 10 then regsPwr else if slot = 11 then regsTrg
  else if slot = 12 then regsSbx else if slot = 14 then regsPci else if slot = 15 then regsPci
  else if 16 ≤ slot ∧ slot < 24 then regsEth else if 24 ≤ slot ∧ slot < 28 then regsHbm
  else if 32 ≤ slot ∧ slot < 64 then regsCl else []

/-- The fields of the register at a live offset; none for a reserved register (R432). Every 8-byte offset of CAL_ is a
CAL_ITEM (R486). -/
def regFields (o : Nat) : List Fld :=
  if o / 0x1000 = 13 then [⟨48, 48, .ro, 0⟩, ⟨47, 32, .ro, 0⟩, ⟨31, 16, .ro, 0⟩, ⟨15, 0, .ro, 0⟩]
  else match (slotRegs (o / 0x1000)).find? (fun r => r.1 == o % 0x1000) with
    | some r => r.2
    | none => []

/-- The value of a register at reset: each field at its reset value, every other bit 0. -/
def regReset (o : Nat) : Word :=
  (regFields o).foldl (fun w f => setFld w f.lo (f.hi + 1 - f.lo) f.reset) 0

end Sys2Proof.Machine
end

