-- ==== Sys2Proof/Machine/SMap.lean ====
section
/-! DEFINITION. A sparse map from addresses to values, as plain data in ONE canonical form: keys strictly
rising, and no entry that holds what an unlisted key reads as. Equal maps are therefore equal lists. -/
namespace Sys2Proof.Machine

/-- A sparse map: pairs of key and value. What an unlisted key reads as is a parameter of the operations. -/
abbrev SMap (α : Type) := List (Nat × α)

/-- The value at key `k`; `d k` where the map lists nothing. -/
def SMap.get {α : Type} (d : Nat → α) : SMap α → Nat → α
  | [], k => d k
  | (k', v) :: m, k => if k = k' then v else SMap.get d m k

/-- The map without key `k`. -/
def SMap.erase {α : Type} (m : SMap α) (k : Nat) : SMap α := m.filter (fun p => p.1 ≠ k)

/-- The map with an entry put before the first greater key. -/
def SMap.insert {α : Type} : SMap α → Nat → α → SMap α
  | [], k, v => [(k, v)]
  | (k', v') :: m, k, v => if k < k' then (k, v) :: (k', v') :: m else (k', v') :: SMap.insert m k v

/-- The map with `k` made to read `v`: writing the default removes the entry. -/
def SMap.set {α : Type} [DecidableEq α] (d : Nat → α) (m : SMap α) (k : Nat) (v : α) : SMap α :=
  if v = d k then m.erase k else (m.erase k).insert k v

/-- Every key of the map is above `b`, the keys rise strictly, and no entry holds its key's default. -/
def SMap.wfFrom {α : Type} [DecidableEq α] (d : Nat → α) : Nat → SMap α → Bool
  | _, [] => true
  | b, (k, v) :: m => decide (b ≤ k) && decide (v ≠ d k) && SMap.wfFrom d (k + 1) m

/-- The canonical form. -/
def SMap.wf {α : Type} [DecidableEq α] (d : Nat → α) (m : SMap α) : Bool := SMap.wfFrom d 0 m

/-- A list in ascending order: elements that `le` holds to be equal keep their order. -/
def insertBy {α : Type} (le : α → α → Bool) (a : α) : List α → List α
  | [] => [a]
  | b :: l => if le a b then a :: b :: l else b :: insertBy le a l
def sorted {α : Type} (le : α → α → Bool) (l : List α) : List α := l.foldr (insertBy le) []

end Sys2Proof.Machine
end

