-- ==== Sys2Proof/Syntax.lean ====
section
/-! DEFINITION. The commands of the RT9600: one constructor of `Instr` for each row of the opcode table, with the row's
operands. The command of a thread's instruction names the thread by its global identifier (R13) and carries the operand fields
of the instruction's word. A command whose effect the device spreads over several indivisible steps (LDM, a whole-string form,
a REP pair) carries how many of those steps are made before the next point at which an interrupt may fall. -/
namespace Sys2Proof

/-- The operands of a decimal instruction: a storage pair (R172) or two accumulators (R174). -/
inductive DOps
  | ss (ba bb : GReg) (l1 l2 : BitVec 5) (d1 d2 : BitVec 16)
  | acc (dk dj : DReg)
  deriving DecidableEq, Repr

/-- An upset found by a read: the line or word it lies in, and which stored symbol or bit (R404, R408); of a critical word, which lies in control
space, bit `sym % 64` of copy `sym / 64` (R410). -/
structure Upset where
  addr : Nat
  sym : Nat
  deriving DecidableEq, Repr

/-- A UDP datagram as a port receives it (R41): MAC and IP addresses as numbers, the VLAN ID of its tag, the frame's length from the
destination MAC address to the end of the frame check sequence. -/
structure Udp where
  smac : Nat
  vlan : Option Nat
  v6 : Bool
  sip : Nat
  sport : Nat
  dip : Nat
  dport : Nat
  flen : Nat
  payload : List Byte
  deriving DecidableEq, Repr

/-- What the move of a bundle meets outside the cluster stores (R507, R510): the bytes of an imported bundle as host memory holds them, and the
granules of an exported bundle, counted from 0, whose read of the capture region is uncorrectable. -/
structure BundleIo where
  bytes : List Byte
  ues : List Nat
  deriving DecidableEq, Repr

/-- An IEEE 1588 message as a port receives it (R555): to UDP port 319 (event) or 320, whether
it is addressed to one of the port's addresses or to an IEEE 1588 multicast address, and its bytes from the destination MAC address. -/
structure PtpIn where
  event : Bool
  addressed : Bool
  flen : Nat
  bytes : List Byte
  deriving DecidableEq, Repr

/-- A frame that an Ethernet port receives (R41, R45, R555). -/
inductive RxFrame
  | udp (u : Udp)
  | arp (request : Bool) (smac sip tip : Nat) (vlan : Option Nat) (flen : Nat)
  | nd (solicitation : Bool) (smac sip dip target : Nat) (vlan : Option Nat) (flen : Nat)
  | ptp (p : PtpIn)
  | other (flen : Nat)
  deriving DecidableEq, Repr

/-- A frame of the Loop Line (R369): the fields of its header, and its body in units of 64 bytes. -/
structure LFrame where
  magic : Nat
  fver : Nat
  typ : Nat
  origin : Nat
  hops : Nat
  sender : Nat
  fmt : Nat
  ringname : Nat
  fseq : Nat
  ackseq : Nat
  nak : Bool
  crc : Nat
  body : List (List Byte)
  deriving DecidableEq, Repr
/-- An agent that reaches control space (R433): a thread, the host through PCIA or PCIB, the Signal Box, or the sideband. -/
inductive Agent
  | thread (g : Nat)
  | pcia | pcib | box | sideband
  deriving DecidableEq, Repr

/-- A PCIe function of a controller (R558). -/
inductive PciFn
  | pf0 | pf1 | vf (n : Nat) | pf2
  deriving DecidableEq, Repr


/-- The commands, one constructor per row of the opcode table. -/
inductive Instr where
  -- integer register forms (R223, R226, R227)
  | add (g : Nat) (rd ra rb : GReg)
  | adc (g : Nat) (rd ra rb : GReg)
  | sub (g : Nat) (rd ra rb : GReg)
  | sbc (g : Nat) (rd ra rb : GReg)
  | and (g : Nat) (rd ra rb : GReg)
  | or (g : Nat) (rd ra rb : GReg)
  | xor (g : Nat) (rd ra rb : GReg)
  | andn (g : Nat) (rd ra rb : GReg)
  | shl (g : Nat) (rd ra rb : GReg)
  | shr (g : Nat) (rd ra rb : GReg)
  | sar (g : Nat) (rd ra rb : GReg)
  | mul (g : Nat) (rd ra rb : GReg)
  | mulh (g : Nat) (rd ra rb : GReg)
  | mulhu (g : Nat) (rd ra rb : GReg)
  | div (g : Nat) (rd ra rb rr : GReg)
  | divu (g : Nat) (rd ra rb rr : GReg)
  -- integer immediate forms (R224)
  | addi (g : Nat) (rd ra : GReg) (imm : BitVec 16)
  | subi (g : Nat) (rd ra : GReg) (imm : BitVec 16)
  | andi (g : Nat) (rd ra : GReg) (imm : BitVec 16)
  | ori (g : Nat) (rd ra : GReg) (imm : BitVec 16)
  | xori (g : Nat) (rd ra : GReg) (imm : BitVec 16)
  | movk (g : Nat) (rd : GReg) (hw : BitVec 2) (imm : BitVec 16)
  | shi (g : Nat) (rd ra : GReg) (kind : BitVec 2) (amt : BitVec 6)
  -- loads, stores, atomics (R257, R258); `ups`: upsets that the read of a load finds
  | ld (g : Nat) (r ra : GReg) (sz : BitVec 2) (x : Bool) (disp : BitVec 12) (ups : List Upset)
  | st (g : Nat) (r ra : GReg) (sz : BitVec 2) (x : Bool) (disp : BitVec 12)
  | aadd (g : Nat) (rd ra rb : GReg) (sz : BitVec 2)
  | aswp (g : Nat) (rd ra rb : GReg) (sz : BitVec 2)
  | acas (g : Nat) (rd ra rb rc : GReg) (sz : BitVec 2)
  | aand (g : Nat) (rd ra rb : GReg) (sz : BitVec 2)
  | aor (g : Nat) (rd ra rb : GReg) (sz : BitVec 2)
  -- control transfer (R259, R135, R136)
  | bc (g : Nat) (cond : BitVec 4) (disp : BitVec 22)
  | br (g : Nat) (disp : BitVec 26)
  | jmpr (g : Nat) (ra : GReg)
  | callw (g : Nat) (disp : BitVec 26)
  | callwr (g : Nat) (ra : GReg)
  | retw (g : Nat)
  -- special registers, multiple transfers, loops, repeat (R131-R151)
  | mfs (g : Nat) (ra : GReg) (spr : BitVec 6)
  | mts (g : Nat) (ra : GReg) (spr : BitVec 6)
  | ldm (g : Nat) (ra rb : GReg) (n : Nat)
  | stm (g : Nat) (ra rb : GReg) (n : Nat)
  | loop (g : Nat) (rc : GReg) (len : BitVec 16)
  | rep (g : Nat) (low : BitVec 26) (second : BitVec 32) (n : Nat)
  -- packed decimal (R178-R189)
  | dadd (g : Nat) (ops : DOps)
  | dsub (g : Nat) (ops : DOps)
  | dmul (g : Nat) (ops : DOps)
  | ddiv (g : Nat) (ops : DOps) (dm : DReg)
  | dcmp (g : Nat) (ops : DOps)
  | dmac (g : Nat) (dk dj dm : DReg)
  | dshf (g : Nat) (dk : DReg) (n : BitVec 7) (rm : BitVec 2)
  | dlda (g : Nat) (dk : DReg) (ra : GReg) (l : BitVec 5) (disp : BitVec 12)
  | dsta (g : Nat) (dk : DReg) (ra : GReg) (l : BitVec 5) (disp : BitVec 12)
  | dpack (g : Nat) (ba bb : GReg) (l1 l2 : BitVec 5) (m : BitVec 2) (d1 d2 : BitVec 16)
  | dunpk (g : Nat) (ba bb : GReg) (l1 l2 : BitVec 5) (m : BitVec 2) (d1 d2 : BitVec 16)
  | dcvb (g : Nat) (rd : GReg) (dk : DReg) (u : Bool)
  | dcvd (g : Nat) (dk : DReg) (ra : GReg) (u : Bool)
  | dtst (g : Nat) (ba : GReg) (l1 : BitVec 5) (d1 : BitVec 16)
  -- strings and editing (R194-R220); `n`: steps made before the next interruptible point
  | movs (g : Nat) (rd rs rn : GReg) (f : Bool) (byte : Byte) (n : Nat)
  | movt (g : Nat) (rd rs rn rt : GReg) (n : Nat)
  | cmps (g : Nat) (rd rs rn : GReg) (n : Nat)
  | scan (g : Nat) (rs rn : GReg) (ne : Bool) (byte : Byte) (n : Nat)
  | sctb (g : Nat) (rd rs rn rt : GReg) (n : Nat)
  | edit (g : Nat) (rd rs rn rt : GReg) (byte : Byte) (n : Nat)
  | edloc (g : Nat) (rd rs rn rt rk : GReg) (byte : Byte) (n : Nat)
  | move (g : Nat) (rd rs : GReg) (sz : BitVec 2)
  | movte (g : Nat) (rd rs rt : GReg)
  | ste (g : Nat) (rd rs : GReg) (sz : BitVec 2)
  -- floating point (R230-R246)
  | fadd (g : Nat) (fmt : BitVec 2) (fd fa fb : FReg)
  | fsub (g : Nat) (fmt : BitVec 2) (fd fa fb : FReg)
  | fmul (g : Nat) (fmt : BitVec 2) (fd fa fb : FReg)
  | fdiv (g : Nat) (fmt : BitVec 2) (fd fa fb : FReg)
  | fsqrt (g : Nat) (fmt : BitVec 2) (fd fa : FReg)
  | fma (g : Nat) (fmt : BitVec 2) (fd fa fb fc : FReg)
  | fcmp (g : Nat) (fmt : BitVec 2) (fa fb : FReg)
  | fmov (g : Nat) (fmt : BitVec 2) (fd fa : FReg)
  | fneg (g : Nat) (fmt : BitVec 2) (fd fa : FReg)
  | fabs (g : Nat) (fmt : BitVec 2) (fd fa : FReg)
  | fquant (g : Nat) (fmt : BitVec 2) (fd fa fb : FReg)
  | fcvt (g : Nat) (fmt dst : BitVec 2) (fd fa : FReg)
  | fcvti (g : Nat) (r : GReg) (f : FReg) (fmt : BitVec 2) (u : Bool)
  | fcvif (g : Nat) (r : GReg) (f : FReg) (fmt : BitVec 2) (u : Bool)
  | fmvfx (g : Nat) (r : GReg) (f : FReg)
  | fmvxf (g : Nat) (r : GReg) (f : FReg)
  | fbar (g : Nat)
  | fld (g : Nat) (f : FReg) (sz : BitVec 2) (ra : GReg) (disp : BitVec 14)
  | fst (g : Nat) (f : FReg) (sz : BitVec 2) (ra : GReg) (disp : BitVec 14)
  | fldp (g : Nat) (f : FReg) (q : Bool) (ra : GReg) (l : BitVec 5) (e : BitVec 10)
  | fstp (g : Nat) (f : FReg) (q : Bool) (ra : GReg) (l : BitVec 5) (e : BitVec 10)
  | floatingOpComplete (g : Nat) (k : Nat)
  -- system group and hints (R261, R263)
  | scall (g : Nat)
  | sret (g : Nat)
  | retx (g : Nat)
  | fence (g : Nat)
  | release (g : Nat)
  | trig (g : Nat) (code : BitVec 16)
  | brk (g : Nat) (code : BitVec 16)
  | hint (g : Nat) (bits : BitVec 26)
  | post (g : Nat) (rd ra rb rt : GReg) (field : BitVec 3) (rel : Bool)
  -- the thread's own events
  | modeChangeCommit (g : Nat)
  | instructionLineFetch (g line : Nat)
  | storeBufferDrain (g : Nat)
  | exceptionEntry (g : Nat)
  | interruptPending (source : Nat)
  | interruptEntry (g : Nat)
  -- HBM lines in the cluster stores (R302, R316, R319); lines by number, address / 64
  | lineFill (c line : Nat) (writable : Bool) (ups : List Upset)
  | writeGrant (c line : Nat)
  | lineInvalidation (c line : Nat) (down : Bool)
  -- the Yard (chapter 3): clusters and tracks by number
  | consistDispatch (c : Nat)
  | moveComplete (t : Nat)
  | holdDrain (t : Nat)
  -- posting (chapter 11): a POST by the number it got when it was sent
  | postExecute (tag : Nat)
  | postResult (tag : Nat)
  -- records in and acknowledgements out (chapter 2): Ethernet ports 0-7; PCIe controller 0 or 1, function 0-32, local queue 0-31
  | recordsDatagram (p : Nat) (u : Udp)
  | creditRequest (p : Nat) (u : Udp)
  | arpRequest (p smac sip tip : Nat) (vlan : Option Nat) (flen : Nat)
  | neighbourSolicitation (p smac sip dip target : Nat) (vlan : Option Nat) (flen : Nat)
  | frameDrop (p : Nat) (f : RxFrame)
  | ackCoalesceExpiry (n : Nat)
  | recordBufferRoom
  | egressAckQueueSpace
  | queueDoorbell (ctl func loc : Nat) (v : BitVec 32)
  | queueDescriptorWrite (ctl func loc off : Nat) (bs : List Byte)
  | submitEntryTake (ctl func loc : Nat) (entry record : List Byte)
  | journalQueueDelivery (q : Nat)
  -- the Loop Line (chapter 12): a frame arrives on the EAST port (true) or the WEST port
  | journalFrame (east : Bool) (f : LFrame)
  | stateFrame (east : Bool) (f : LFrame)
  | epochackFrame (east : Bool) (f : LFrame)
  | heartbeatFrame (east : Bool) (f : LFrame)
  | transferFrame (east : Bool) (f : LFrame)
  | outcomeFrame (east : Bool) (f : LFrame)
  | membershipFrame (east : Bool) (f : LFrame)
  | cutoverFrame (east : Bool) (f : LFrame)
  | linkackFrame (east : Bool) (f : LFrame)
  | badFrame (east : Bool) (f : LFrame)
  | linkResendTimeout (east : Bool)
  | linkIdle (east : Bool)
  | portTrained (east : Bool) (fibres : Nat)
  | portLossOfSignal (east : Bool) (fibres : Nat)
  | silenceLoss
  | linkdownExpiry (east : Bool)
  | joinTimeout
  | llWatchdog
  | throughLineSwitched (insert : Bool)
  -- control space (chapter 14): `a`, the agent; `v`, the value written; `o`, the 26-bit offset; `wide`, an 8-byte write
  | registerWrite (a : Agent) (o : Nat) (wide : Bool) (v : BitVec 64)
  | bitAliasWrite (a : Agent) (o : Nat) (v : BitVec 32)
  | interlockValueWrite (a : Agent) (reset : Bool) (v : BitVec 64)
  | interlockTimeout (reset : Bool)
  | cfgLockWrite (a : Agent) (v : BitVec 64)
  | rwsApply
  | snpGo (a : Agent)
  | sync (a : Agent) (ctl tag vec : Nat)
  | identity (a : Agent) (ctl tag vec : Nat)
  | quote (a : Agent) (ctl tag vec : Nat)
  | mailboxCommandDone (ctl : Nat) (nonce : List Byte)
  | cfgIrtDataWrite (a : Agent) (v : BitVec 32)
  | cfgSwi (a : Agent) (v : BitVec 32)
  | qmKdbWrite (a : Agent) (v : BitVec 64)
  | kernelQueueReset (a : Agent) (q : BitVec 13)
  | pinCommand (a : Agent) (cluster : BitVec 5) (track : BitVec 16)
  | unpinCommand (a : Agent) (track : BitVec 16)
  | yrdForbidWrite (a : Agent) (v : BitVec 32)
  | yrdSnapGo (a : Agent) (v : BitVec 64)
  | jnlQdataWrite (a : Agent) (v : BitVec 32)
  | lineUpdate (a : Agent) (v : BitVec 64)
  | leave (a : Agent)
  | force (a : Agent) (on : Bool)
  | heal (a : Agent) (v : BitVec 64)
  | scrubRead (addr : Nat) (ups : List Upset)
  | functionLevelReset (ctl : Nat) (f : PciFn)
  | perstN (ctl : Nat)
  | pcieLinkUp (ctl : Nat)
  | pcieLinkDown (ctl : Nat)
  -- the boundary, checkpoints and signatures
  | checkpoint (c : Nat)
  -- starts, resets and power (chapters 15 and 17); an image is the bytes of a flash slot
  | coldStart (strap : Nat)
  | warmStart (rise : Bool)
  | powerFailReset (rail mv : Nat)
  | hbmTrainingDone (ok : Bool)
  | imageReadDone (big : Bool) (img : List Byte)
  | imageSlotFailure (big : Bool) (len code : Nat)
  | threadRestart (a : Agent) (g : Nat)
  | clusterReset (a : Agent) (mask : BitVec 32)
  | deviceSoftReset (a : Agent)
  | standbyEntry (a : Agent)
  | cautionEntry (rail mv : Nat)
  | thermalSensorRead (raw : List Int)
  | napEntry (c : Nat)
  | napExit (c : Nat)
  | dozeEntry (core : Nat)
  | dozeExit (core : Nat)
  | clkTodstep (a : Agent) (v : BitVec 64)
  | timerExpiry (n : Nat)
  | sbxRngRead (a : Agent)
  -- the Train Register (chapter 16): the host's extent list as address and length, and what the move of a bundle meets
  | freeze (a : Agent)
  | rearm (a : Agent)
  | trainExport (a : Agent) (v : BitVec 64)
  | trainImport (a : Agent) (v : BitVec 64)
  | exportImportDone (extents : List (Nat × Nat)) (bundle : BundleIo)
  | replayEnter (a : Agent) (c : BitVec 5)
  | replayLoad (a : Agent)
  | replayGo (a : Agent)
  | replayRecord (asked : Bool)
  | replayDump (a : Agent)
  | replayExit (a : Agent)
  -- ports and pins (chapter 18)
  | ptpFrameReceived (p : Nat) (f : PtpIn)
  | ptpRxEnable (p : Nat) (a : Agent) (v : BitVec 64)
  | ptpRxHeadWrite (p : Nat) (a : Agent) (v : BitVec 32)
  | ptpTx (p : Nat) (a : Agent) (v : BitVec 64)
  | sidebandRead (o : Nat)
  | ethLinkUp (p : Nat)
  | ethLinkDown (p : Nat) (all : Bool)
  | extest (cells : Nat)
  | epochBoundary
  | signPeriodMark
  | chainSignature
  | rngHealthFail
  | powerDown
  | powerFailRestart
  | clockFaultReset
  | pllRelock
  | clusterRelease
  | wake
  | cautionExit
  | vcoreSetpointReported
  | thermtrip
  | ppsInEdge
  | ppsOutEdge
  | trigInEdge
  | freezeInstant
  | sidebandStatus
  deriving DecidableEq, Repr

end Sys2Proof
end

