-- ==== Sys2Proof/Machine/State.lean ====
section
/-! DEFINITION. The state of the RT9600 as plain data: everything the spec gives the device, and the queue of waiting commands. -/
namespace Sys2Proof.Machine

open Sys2Proof

/-- Why a command stops the machine. -/
inductive Fault
  /-- Raised by a command that names a thread, cluster, core, port, controller, queue or timer the device does not have
  (R12): no such command can reach the device. Safe: nothing is claimed about what would follow. -/
  | noSuchUnit
  deriving DecidableEq, Repr

/-- Why a command has no meaning here. -/
inductive Refusal
  /-- Raised only by an arm of `exec` whose command has no meaning yet, by the command's mnemonic. Safe. -/
  | notModelled (mnemonic : String)
  deriving DecidableEq, Repr

/-- A byte on its way to memory, with its poison mark (R315, R417). -/
structure PByte where
  val : Byte
  poison : Bool
  deriving DecidableEq, Repr

/-- A register with its one poison mark (R417). -/
structure Reg where
  val : Word
  poison : Bool
  deriving DecidableEq, Repr

/-- A decimal accumulator D0-D7: a value below 10^64 in magnitude and one poison mark (R133, R163). -/
structure DAcc where
  val : Int
  poison : Bool
  deriving DecidableEq, Repr

/-- The states of R124 that last beyond one command. READY and WAITING are both `running` (which of the two holds is
a fact about the conditions of R125); ENTRY never lasts, because an entry is one command. -/
inductive RunState
  | free | running | locked
  deriving DecidableEq, Repr

/-- One level of the hardware loops (R145), with the first 16 bytes at its LA as its LOOP found them (R146, R498). -/
structure LoopLevel where
  la : Word
  lb : Word
  ln : Word
  head : List Byte
  deriving DecidableEq, Repr

/-- The special registers that exist once per world (R273). -/
structure WorldRegs where
  sentry : Word
  edtb : Word
  tsbr : Word
  deriving DecidableEq, Repr

/-- A pending mode change (R152): TS bits [6:0] to come, and how many instructions still run in the old mode. -/
structure Shadow where
  bits : Word
  left : Nat
  deriving DecidableEq, Repr

/-- The resume state of an interrupted LDM or STM (R140): the remaining mask and the next slot address. -/
structure McState where
  mask : BitVec 32
  addr : Word
  deriving DecidableEq, Repr

/-- Where a pending lazy decimal save will go (R141, R142): the reserved area and the block that holds FILLED. -/
structure LazyArea where
  area : Nat
  block : Nat
  deriving DecidableEq, Repr

/-- An entry of the store buffer (R315): consecutive bytes of one line, the storing thread's world (R308), whether it is one of
the block writes of an entry or a lazy fill, which follow the buffer's entries without taking one of its 8 places (R286), and
whether its drain has begun and waits for the directory (R316). -/
structure StoreEntry where
  addr : Nat
  data : List PByte
  world : Bool
  block : Bool
  asked : Bool
  deriving DecidableEq, Repr

/-- A pending interrupt of a thread (R290): world, vector and latched priority. -/
structure PendingIrq where
  world : Bool
  vector : Nat
  prio : Nat
  deriving DecidableEq, Repr

/-- A floating operation that has issued and not completed (R245): its address and the flags it raises. -/
structure FpOp where
  pc : Word
  raised : BitVec 5
  deriving DecidableEq, Repr

/-- A POST whose result has not returned (R335): the destination as a physical register, the release form, and the key
that names the POST to its engine. -/
structure PostWait where
  tag : Nat
  dest : Nat
  rel : Bool
  deriving DecidableEq, Repr

/-- A record of a consist, as the consist slot lists it (R89). -/
structure ConsistRec where
  addr : Nat
  recId : Nat
  deriving DecidableEq, Repr

/-- The consist a thread holds (R89): its track, its records, and the generation and epoch at dispatch. -/
structure Consist where
  track : Nat
  recs : List ConsistRec
  gen : Nat
  epoch : Nat
  deriving DecidableEq, Repr

/-- The line that a fetch buffer holds (R154): its number, and its bytes as they were fetched (R157). -/
structure FetchLine where
  line : Nat
  bytes : List PByte
  deriving DecidableEq, Repr

/-- One thread: everything chapter 4 and the chapters it points to give it. -/
structure Thread where
  run : RunState
  pc : Word
  /-- Physical general registers: 1-7 X1-X7, 8-199 groups G0-G23, 200-215 the Up bank, 216-231 the Down bank. -/
  regs : SMap Reg
  fregs : SMap Reg
  dacc : SMap DAcc
  fl : Reg
  ts : Word
  shadow : Option Shadow
  cnt : Word
  es : Reg
  wsel : Nat
  wd : Nat
  lp0 : LoopLevel
  lp1 : LoopLevel
  lp2 : LoopLevel
  fps : Word
  fpepc : Word
  fpOut : List FpOp
  /-- The model's own: how many of `fpOut` precede, in program order, the operation that FPEPC names (R245). -/
  fpBefore : Nat
  sepc : Word
  sefl : Reg
  sets : Word
  up : WorldRegs
  down : WorldRegs
  xceil : Word
  mc : Option McState
  lazySave : Option LazyArea
  lazyOuter : List (Nat × Option LazyArea)
  sb : List StoreEntry
  irqs : List PendingIrq
  posts : List PostWait
  consist : Option Consist
  /-- A release-form POST has completed with OK and its release waits (R57, R337, R338). -/
  releasing : Bool
  fetchLine : Option FetchLine
  deriving DecidableEq, Repr

/-- A line of HBM held in a cluster store (R302, R316): whether it is held writable, the bytes HBM still holds where the copy
has been written and not written back, and its way. A cluster lists its lines most recently used first. -/
structure CLine where
  line : Nat
  way : Nat
  writable : Bool
  old : Option (List PByte)
  deriving DecidableEq, Repr

/-- An entry of a core's branch-target buffer (R155): the address of the transfer and its target; its 16 target bytes
are those the code store holds, because a store to them invalidates it. A set lists its entries most recently used first. -/
structure BtbEntry where
  addr : Nat
  target : Nat
  deriving DecidableEq, Repr

/-- The memories of the device (R297): the bytes of every populated address outside control space as every agent sees them, the
8-byte granules that are marked poisoned (R417), and the upsets in stored HBM codewords, by line number, and in stored SRAM
words, by address (R404, R408). Keys of the maps: byte address; granule number; line number; word address. -/
structure Mem where
  bytes : SMap Byte
  marks : SMap Bool
  hbmUpset : SMap (List Nat)
  sramUpset : SMap (List Nat)
  deriving DecidableEq, Repr

/-- An entry of the repeat table (R412, R413). -/
structure RptEntry where
  valid : Bool
  reported : Bool
  die : Nat
  count : Nat
  addr : Nat
  deriving DecidableEq, Repr

/-- One cluster. -/
structure Cluster where
  /-- Released by phase 6 of a start and not reset since (R481, R531): its threads may run. -/
  released : Bool
  /-- Power-gated in NAP (R534). -/
  napping : Bool
  /-- Issue stopped while a checkpoint or a freeze image is written (R497, R504). -/
  held : Bool
  /-- The HBM lines its store holds (R302). -/
  lines : List CLine
  /-- The cluster's cycle count (R494), in tenths of a core cycle. -/
  ccc : Nat
  deriving DecidableEq, Repr

/-- A trigger of the Train Register that has not yet reached its freeze instant (R503, R504), with the CCC of its cluster and the
time of that instant in ns. -/
structure TrigPend where
  code : Nat
  cluster : Nat
  localId : Nat
  tag : Nat
  stamp : Nat
  due : Nat
  deriving DecidableEq, Repr

/-- A capture record (R495, R496). -/
structure CapRec where
  stamp : Nat
  kind : Nat
  loc : Nat
  sub : Nat
  addr : Nat
  payload : List Byte
  deriving DecidableEq, Repr

/-- A checkpoint of a cluster (R497, R498): its CCC, the time it was taken, whether it was taken at the release after a cluster
reset, the cluster's state, and the number of the first of the free values that stand in it (assumption 53). -/
structure Ckpt where
  ccc : Nat
  time : Nat
  fresh : Bool
  thr : SMap Thread
  clu : Cluster
  btb : SMap (List BtbEntry)
  drawn : Nat
  deriving DecidableEq, Repr

/-- The share of a captured cluster (R500): its checkpoints and its records, oldest first (a CKPT record for each checkpoint), the
lines that have an undo record since the last checkpoint (R499), and whether data was overwritten before its time (R501). -/
structure Share where
  ckpts : List Ckpt
  recs : List CapRec
  undone : List Nat
  acct : List Nat
  ovf : Bool
  deriving DecidableEq, Repr

/-- A freeze image (R504): the bytes and poison marks of a cluster's stores, by offset in the two store images that a part of a
bundle holds (R508); its END stamp. -/
structure FImage where
  stamp : Nat
  bytes : SMap Byte
  marks : SMap Bool
  deriving DecidableEq, Repr

/-- What a freeze fixes (R504, R508). -/
structure Frozen where
  trig : TrigPend
  tod : Nat
  epoch : Nat
  images : SMap FImage
  deriving DecidableEq, Repr

/-- The detached cluster of a replay (R510, R511): the field cluster it stands for, whether a part has been imported and its length, the records
left, the END stamp, the CCC at GO, the responses that have arrived and no instruction has taken yet, and the cluster's own threads,
branch-target buffers and memories. `inside` marks the device as that cluster sees it. -/
structure Replay where
  field : Nat
  imported : Bool
  len : Nat
  recs : List CapRec
  endAt : Nat
  goAt : Nat
  resp : List CapRec
  inside : Bool
  thr : SMap Thread
  clu : Cluster
  btb : SMap (List BtbEntry)
  mem : Mem
  deriving DecidableEq, Repr

/-- The Train Register's own state, beside its registers. -/
structure Trg where
  pend : Option TrigPend
  /-- CLUSTERS and WINDOW as applied when capture was armed, and whether capture is to be armed at the next boundary (R506, R513, R514). -/
  clusters : Nat
  window : Nat
  arm : Bool
  /-- Base and size of the region as the Timetable loaded them (R506). -/
  region : Nat
  shares : SMap Share
  frozen : Option Frozen
  replay : Replay
  deriving DecidableEq, Repr

/-- A source's address on a port, and the device address that it wrote to (R56). -/
structure Reply where
  source : Nat
  port : Nat
  v6 : Bool
  ip : Nat
  udp : Nat
  ourIp : Nat
  ourUdp : Nat
  deriving DecidableEq, Repr

/-- The door by which a record came, through which its acknowledgements leave (R56, R75, R374). -/
inductive Door
  | eth (r : Reply)
  | host (ctl func submit : Nat)
  | ring (hdr : List Byte)
  deriving DecidableEq, Repr

/-- An acknowledgement entry (R52). -/
structure Ack where
  kind : Nat
  code : Nat
  source : Nat
  seq : Nat
  owner : Option Nat
  epoch : Nat
  deriving DecidableEq, Repr

/-- Where an accepted record is (R37, R68, R105, R338): in a slot of a record queue, in the hold, or released as POSTED with the epoch
of its release, waiting for its commitment. -/
inductive Place
  | queue (q slot : Nat)
  | hold
  | posted (epoch : Nat)
  deriving DecidableEq, Repr

/-- A record the device has accepted (R46, R573). -/
structure Rec where
  id : Nat
  addr : Nat
  len : Nat
  source : Nat
  seq : Nat
  cls : Nat
  quiet : Bool
  primary : Nat
  track : Nat
  door : Door
  arrival : Nat
  place : Place
  /-- A POST of the record has completed with OK and its entry stands (R59). -/
  ok : Bool
  /-- The epoch of its last journal entry, marker entries included (R24). -/
  last : Nat
  /-- The consist whose marker entries the POSTED acknowledgement waits for (R338), by its first record. -/
  owed : Option Nat
  deriving DecidableEq, Repr

/-- A record in the record buffer that has passed step 2 of R46 and no further check (R571). -/
structure WaitRec where
  bytes : List Byte
  /-- The SOURCE of the transport header; none for a record of a submit queue (R75). -/
  header : Option Nat
  /-- The source was enabled when the datagram came (R46 step 1). -/
  enabled : Bool
  /-- The credit was exhausted when it arrived (R50). -/
  broke : Bool
  /-- LEN of the submit entry differs from LENGTH (R75). -/
  badLen : Bool
  door : Door
  arrival : Nat
  deriving DecidableEq, Repr

/-- An ACKS datagram that is being filled (R56). -/
structure Dgram where
  source : Nat
  reply : Reply
  queue : Nat
  acks : List Ack
  deriving DecidableEq, Repr

/-- The MAC address and VLAN of the most recent frame that a source sent from an IP address and UDP port to a port (R45). -/
structure Peer where
  source : Nat
  port : Nat
  ip : Nat
  udp : Nat
  mac : Nat
  vlan : Option Nat
  deriving DecidableEq, Repr

/-- A queue's descriptor (R67). -/
structure QDesc where
  base : Nat
  wb : Nat
  log2 : Nat
  kind : Nat
  enable : Bool
  qerr : Bool
  vector : Nat
  mark : Nat
  head : Nat
  tail : Nat
  deriving DecidableEq, Repr

/-- The duplicate window of one source (R37): the highest sequence accepted, and the sequences with a seen bit (1: no journal entry
yet; 2: journaled, so that a WINDOW unit carries it, R376). -/
structure Win where
  h : Nat
  seen : SMap Nat
  deriving DecidableEq, Repr

/-- A POST on its way to an engine or in its queue (R332, R333). -/
structure PostReq where
  tag : Nat
  g : Nat
  track : Nat
  acct : Word
  amt : List Byte
  recId : Option Nat
  ref : Nat
  cls : Nat
  world : Bool
  sup : Bool
  key : Nat
  user : Nat
  rel : Bool
  /-- The cluster whose engine it is for: the home of its track, or the destination of the move it waits for (R333, R106). -/
  engine : Nat
  /-- It has waited in the hub for a move or a cluster reset (R106, R531). -/
  held : Bool
  /-- It has reached the engine. -/
  arrived : Bool
  deriving DecidableEq, Repr

/-- A POST's result on its way back to its thread (R335). -/
structure PostRes where
  tag : Nat
  g : Nat
  status : Nat
  seq : Nat
  neg : Bool
  deriving DecidableEq, Repr

/-- A marker entry that waits at its engine for a sequence (R338, R355). -/
structure Marker where
  group : Nat
  recId : Nat
  ref : Nat
  acct : Nat
  cls : Nat
  g : Nat
  deriving DecidableEq, Repr

/-- The queue manager and the transport. -/
structure Hub where
  recs : List Rec
  nextRec : Nat
  waiting : List WaitRec
  dgrams : List Dgram
  /-- Acknowledgements that wait for space in their queue (R57, R75). -/
  ackWait : List (Door × Ack)
  peers : List Peer
  queues : SMap QDesc
  /-- Credits used, by source × 8 + port (R50). -/
  used : SMap Nat
  wins : SMap Win
  posts : List PostReq
  results : List PostRes
  nextTag : Nat
  markers : List Marker
  deriving DecidableEq, Repr

/-- The states of a track (R98). -/
inductive TState
  | foreign | settled | planned | marked | moving
  deriving DecidableEq, Repr

/-- A track: its entry (R85), its pin (R109), its statistics (R95), its occupancy, and its waiting records in acceptance order. -/
structure Track where
  owner : Nat
  /-- The ring ID that the Timetable's ownership map gives the track (R366). -/
  home0 : Nat
  state : TState
  home : Nat
  target : Nat
  reason : Nat
  marks : Nat
  pin : Option Nat
  occ : Bool
  waiting : List Nat
  posts : Nat
  cposts : Nat
  recs : Nat
  bmcnt : Nat
  c : Nat
  bmc : Nat
  streak : Nat
  /-- It ceased to be owned while MOVING, and becomes FOREIGN once the move is complete (R99): whether its records are then transferred
  (R108), and the epoch that began at the boundary where it ceased (R123). -/
  leaving : Option (Bool × Nat)
  deriving DecidableEq, Repr

/-- A command in the pin queue (R109). -/
structure PinCmd where
  pin : Bool
  cluster : Nat
  track : Nat
  deriving DecidableEq, Repr

/-- A cluster's load entry (R97, R122). -/
structure Load where
  recsd : Nat
  wait : Nat
  streak : Nat
  deriving DecidableEq, Repr

/-- The Yard. -/
structure Yard where
  tracks : SMap Track
  hold : List Nat
  pinq : List PinCmd
  gen : Nat
  /-- Tracks in MOVING, in slot order (R102, R103), each with the epoch that began at the boundary of its move. -/
  moves : List (Nat × Nat)
  loads : SMap Load
  logTail : Nat
  /-- A snapshot taken that waits for the moves of its boundary (R108): address and bytes. -/
  snap : Option (Nat × List Byte)
  /-- Clusters that were not eligible when the last boundary had been applied (R110, R535). -/
  barred : Nat
  deriving DecidableEq, Repr

/-- A unit of the journal buffer (R339, R355): its order in the buffer, kind, sequence and epoch, whether it has been sent East, and
the host queues that have taken it. For a seal, `epoch` is the last epoch it covers. -/
structure JUnit where
  id : Nat
  kind : Nat
  seq : Nat
  epoch : Nat
  bytes : List Byte
  sent : Bool
  taken : List Nat
  /-- The lossy host queues that have skipped it (R354). -/
  skipped : List Nat
  /-- It lies in the reserve (R355). -/
  reserve : Bool
  /-- A signature of it has begun (R350). -/
  signed : Bool
  deriving DecidableEq, Repr

/-- An EPOCHACK the origin holds (R375). -/
structure EpochAck where
  rank : Nat
  holder : Nat
  epoch : Nat
  deriving DecidableEq, Repr

/-- A predecessor's unit that waits for host queues (R354): the predecessor's rank (1 or 2), and whether its epoch is known committed. -/
structure PredUnit where
  src : Nat
  unit : JUnit
  committed : Bool
  deriving DecidableEq, Repr

/-- The journal. -/
structure Jnl where
  /-- The device has begun its chain: boundaries seal epochs. -/
  next : Nat
  epoch : Nat
  committed : Nat
  digest : List Byte
  /-- The last committed seal; empty before the first. -/
  lastSeal : List Byte
  /-- The sequence of the last journal entry (R462, POSTSEQ); 0 before the first. -/
  lastEntry : Nat
  /-- Entries appended in the open epoch: how many, and the first one's sequence. -/
  count : Nat
  first : Nat
  units : List JUnit
  nextId : Nat
  preds : List PredUnit
  sels : SMap Nat
  acks : List EpochAck
  /-- Commit notices that wait for a unit (R355). -/
  notices : List (List Byte)
  /-- A period mark has fallen, and the next seal is signed (R353). -/
  markDue : Bool
  /-- The seal that is being signed. -/
  signing : Option (List Byte)
  /-- The times of the last epoch boundary and of the last period mark (R344, R353). -/
  tickAt : Option Nat
  markAt : Option Nat
  deriving DecidableEq, Repr

/-- What one item of the East stream is (R373): a journal unit by its id, or state units. -/
inductive SBody
  | unit (id : Nat)
  | state (units : List (List Byte))
  deriving DecidableEq, Repr

/-- An item of the East stream: the epoch that it belongs to, and whether it has been sent to the holders that the device has now. It is kept
until it has been sent and its epoch is committed (R388). -/
structure SItem where
  epoch : Nat
  sent : Bool
  body : SBody
  deriving DecidableEq, Repr

/-- What is left of a seed (R385), in its order: the lines of accounts, each with its line, the windows of sources, the SEEDEND. -/
inductive SeedStep
  | resume
  | line (acct line : Nat)
  | window (source : Nat)
  | done
  deriving DecidableEq, Repr

/-- A port of the Loop Line (R368-R370): light and training, fibres up, held down by R395, frames not yet sent, frames kept until they are
acknowledged, the next FSEQ to send, the next FSEQ expected, whether the next frame sent carries NAK, and whether any frame has
arrived since training. -/
structure Port where
  up : Bool
  fibres : Nat
  heldDown : Bool
  first : Bool
  txq : List LFrame
  store : List LFrame
  fseq : Nat
  expect : Nat
  nak : Bool
  deriving DecidableEq, Repr

/-- Units of an epoch that a rank-1 holder keeps until its own first successor has acknowledged them (R388), in stream order, each with
whether it is a state unit. -/
structure TailEpoch where
  epoch : Nat
  units : List (Bool × List Byte)
  deriving DecidableEq, Repr

/-- A shadow copy of an origin's chain (R375, R377). -/
structure Replica where
  /-- The next sequence and the digest before it; none until the chain is known. -/
  next : Option Nat
  digest : List Byte
  epoch : Nat
  /-- The epoch under way: some true, held; some false, relayed to its end; none, no unit of it yet (R375). -/
  mode : Option Bool
  /-- Its units so far: whether a state unit, and the bytes. -/
  units : List (Bool × List Byte)
  sealBytes : List Byte
  notice : List Byte
  committed : Nat
  seeded : Bool
  /-- The holder applies nothing further of the origin (R375, R377). -/
  broken : Bool
  tail : List TailEpoch
  wins : SMap Win
  deriving DecidableEq, Repr

/-- The latest heartbeat of a member (R379). -/
structure Beat where
  bytes : List Byte
  sender : Nat
  deriving DecidableEq, Repr

/-- A scheduled cut-over (R393). -/
structure Cut where
  fmt : Nat
  time : Nat
  deriving DecidableEq, Repr

/-- A handback that this device, the handing member, has under way (R391). -/
structure Handing where
  joiner : Nat
  started : Bool
  /-- The joiner has reported that it has applied everything: the tracks are given up at the next boundary. -/
  ready : Bool
  deriving DecidableEq, Repr

/-- A transferred record at its receiving member (R374). -/
structure TOut where
  door : Door
  source : Nat
  seq : Nat
  deriving DecidableEq, Repr

/-- The ring state of the device (R381). -/
inductive RState
  | out | joining | resync | member | leaving | fenced
  deriving DecidableEq, Repr

/-- The Loop Line. -/
structure Ring where
  state : RState
  /-- Live members and adopted members in this device's view, as masks. -/
  live : Nat
  adopted : Nat
  fmtcur : Nat
  cut : Option Cut
  east : Port
  west : Port
  stream : List SItem
  /-- The seeds that have begun (R385), and how many LINE units of the present one have entered the stream. -/
  seeding : List SeedStep
  seedLines : Nat
  replicas : SMap Replica
  beats : SMap Beat
  /-- Epochs of this device since the West neighbour's last heartbeat (R380). -/
  silence : Nat
  /-- The first heartbeat after the WEST port trained has arrived (R380). -/
  greeted : Bool
  /-- Epochs since a heartbeat left (R396). -/
  mute : Nat
  /-- Members declared lost, or leaving, whose tracks this device adopts at its next boundary; with NEWSTATE to announce. -/
  adopting : List (Nat × Nat)
  /-- MEMBERSHIP units to apply at the next boundary (R383). -/
  pendingMemb : List (List Byte)
  handing : Option Handing
  /-- JOINING and RESYNC: the RESUME unit received for this device's own chain; whether a handback unit has arrived in the open
  epoch; that everything has been applied up to within one epoch; that the handing member has given the tracks up (R391). -/
  resume : List Byte
  active : Bool
  caughtUp : Bool
  gaveUp : Bool
  /-- The epoch in which the latest seed ended, until it is committed (R386). -/
  seed : Option Nat
  /-- LL_BYPASS.LEAVE has been seen and the MEMBERSHIP of the leave has been sent (R390). -/
  leaveSent : Bool
  transfers : SMap TOut
  nextTid : Nat
  /-- Shadow pool lines in use (R377), by address. -/
  poolUsed : List Nat
  /-- The epoch whose commitment sets LL_LUPD.DONE (R378). -/
  lupd : Option Nat
  /-- The Through Line switches stand at insert (R394). -/
  inserted : Bool
  /-- A heartbeat of another RINGNAME has been seen while JOINING or in RESYNC, or one of a member with this device's own ring ID (R384). -/
  strange : Bool
  twin : Bool
  /-- The latest heartbeat that each physical neighbour has sent since its port trained: East, then West (R382). -/
  nearEast : List Byte
  nearWest : List Byte
  /-- The last RESUME unit that travelled West was another joiner's (R371, R391). -/
  passing : Bool
  deriving DecidableEq, Repr

/-- A thread's start values (R474, THREADS). -/
structure TStart where
  up : WorldRegs
  down : WorldRegs
  pc : Word
  ts : Word
  deriving DecidableEq, Repr

/-- An Ethernet port's settings (R474, PORTS). -/
structure PortCfg where
  mode : Nat
  an : Nat
  maxFrame : Nat
  mac : Nat
  vlan : Nat
  ipv4 : Nat
  ipv6 : Nat
  deriving DecidableEq, Repr

/-- What the accepted Timetable fixes (R474, R476, R477, R479). -/
structure Tt where
  ringId : Nat
  n : Nat
  ringname : Nat
  hashKey : List Byte
  pools : SMap Nat
  threads : SMap TStart
  poolBase : Nat
  poolLines : Nat
  logBase : Nat
  logSize : Nat
  sources : SMap Nat
  ports : SMap PortCfg
  classes : SMap (Nat × Nat)
  digest : List Byte
  gen : Nat
  fmtread : Nat
  cpDigest : List Byte
  clpDigest : List Byte
  deriving DecidableEq, Repr

/-- What the device sends outside, in order (the model's own record of it). -/
inductive OutMsg
  | udp (port mac : Nat) (vlan : Option Nat) (v6 : Bool) (dip dport sip sport : Nat) (payload : List Byte)
  | arpReply (port own mac ip : Nat) (vlan : Option Nat)
  | advert (port own mac ip : Nat) (vlan : Option Nat)
  | hostWrite (ctl func addr : Nat) (data : List PByte)
  | msix (ctl func vector : Nat)
  | frame (east : Bool) (f : LFrame)
  | ptp (port : Nat) (data : List PByte)
  | pin (name : String) (level : Nat)
  | sideband (bytes : List Byte)
  | value (a : Agent) (v : Word)
  | avs (mv : Nat)
  deriving DecidableEq, Repr

/-- The supplies, pins and states that decide whether the device runs (R530, R534, R549): OFF; RESET_N held low; a power-fail reset that waits
for the rails; a clock-fault reset that waits for its PLL; STANDBY; THERMTRIP_N asserted; on, with a start or the service it led to. -/
inductive Power
  | off | held | powerFail | clockFault | standby | tripped | on
  deriving DecidableEq, Repr

/-- An entry of the Signal Box log (R410, R421, R483, R492, R528, R537). -/
inductive LogEv
  | caution (rail mv : Nat)
  | clusterReset (mask : Nat)
  | threadRestart (g : Nat)
  | rngFail
  | repairSkip (entry : Nat)
  | criticalWord (off : Nat)
  | slot (n code : Nat)
  deriving DecidableEq, Repr

/-- The value an interlocked register holds for its complement (R439): who wrote it, where, and what. -/
structure Held where
  agent : Agent
  off : Nat
  value : Word
  deriving DecidableEq, Repr

/-- A timer (R525). -/
structure Timer where
  en : Bool
  deadline : Nat
  period : Nat
  deriving DecidableEq, Repr

/-- A mailbox command in progress (R459, R488): its code, its buffer's content once it has been taken, and, of a QUOTE, its turn among the QUOTEs in
progress (R493). -/
structure MbxJob where
  code : Nat
  content : Option (List PByte)
  turn : Nat
  deriving DecidableEq, Repr

/-- The Signal Box, the always-on domain, the router, and what control space holds beside its registers. -/
structure SigBox where
  power : Power
  /-- The level of RESET_N. -/
  resetN : Bool
  /-- STARTKIND of the last start (R530). -/
  kind : Nat
  /-- The start reads slot 1 (R483). -/
  slot1 : Bool
  /-- SVNF fuses blown by this device's own starts: the floor they reach (R478). -/
  floor : Nat
  /-- The generator is stopped, and its requests since it was seeded (R492). -/
  rngStopped : Bool
  rngReqs : Nat
  log : List LogEv
  /-- The always-on value of PWR_CAUTION (R443, R540). -/
  caution : Word
  /-- The step of the thermal limit, and the hottest reading in units of 0.125 °C (R549). -/
  thermal : Nat
  hot : Int
  /-- The step whose set point was last requested over AVSBus, and whether the regulator has yet to report it (R521). -/
  vstep : Nat
  avs : Bool
  /-- IEEE 1588 time at which the clusters were last released (R461). -/
  startTod : Nat
  ilk : List Held
  /-- Buffered RWE values (R438) and RWS values that await the slow tick (R443), by live offset. -/
  rwe : SMap (Option Word)
  rws : SMap (Option Word)
  /-- Holding copies (R448), by live offset. -/
  copies : SMap Word
  /-- Routes (R289), and the level sources whose present assertion the router has taken. -/
  routes : SMap Word
  taken : List Nat
  timers : SMap Timer
  mbxA : Option MbxJob
  mbxB : Option MbxJob
  /-- PCIe links up. -/
  linkA : Bool
  linkB : Bool
  /-- A PWR_RSTCMD action in progress, and a write accepted meanwhile (R533). -/
  rst : Option Word
  rstNext : Option Word
  /-- The device is held because the three copies of a critical word all differed (R410). -/
  wordHeld : Bool
  /-- The boundary-scan cells that EXTEST drives (R564). -/
  scan : Option Nat
  /-- GPIO[1:0] sampled at the rise of PWR_GOOD (R563). -/
  strap : Nat
  /-- The control stores: microwords and nanowords of the cores; microcode of the posting engines and the queue manager (R477). -/
  coreCode : List Byte
  hubCode : List Byte
  deriving DecidableEq, Repr

/-- The device: everything but the queue of commands. -/
structure Dev where
  /-- Threads by global identifier (R13); an unlisted thread is as `Thread.reset`. -/
  thr : SMap Thread
  /-- Clusters by number (R12). -/
  clu : SMap Cluster
  /-- Branch-target buffers: key 128 × global core number + set (R155). -/
  btb : SMap (List BtbEntry)
  mem : Mem
  /-- Control-space registers by live offset (R430-R432); an unlisted register holds its reset value. -/
  ctl : SMap Word
  /-- The repeat table (R412). -/
  rpt : SMap RptEntry
  /-- Cores whose clock is gated by DOZE (R534), as global core numbers. -/
  gated : List Nat
  trg : Trg
  hub : Hub
  yard : Yard
  jnl : Jnl
  ring : Ring
  tt : Tt
  box : SigBox
  /-- CLK_TOD (R523), in units of 1/(3 × 10^9) ns. -/
  tod : Nat
  /-- Interrupt sources whose rising edge the router has not taken yet (R289): those that are not asserted as a level. -/
  edges : List Nat
  /-- The model's own: what the device has sent outside, oldest first. -/
  out : List OutMsg
  /-- The model's own: how many free values have been drawn. -/
  free : Nat
  deriving DecidableEq, Repr

/-- The state: the device, and the commands that wait, first in first out. -/
structure State where
  dev : Dev
  pending : List Instr
  deriving DecidableEq, Repr

/-- A general register after a cluster reset: zero with no mark. -/
def Reg.zero : Reg := ⟨0, false⟩
/-- An accumulator after a cluster reset: zero, plus, no mark (R133). -/
def DAcc.zero : DAcc := ⟨0, false⟩
def LoopLevel.reset : LoopLevel := ⟨0, 0, 0, List.replicate 16 0⟩
def WorldRegs.reset : WorldRegs := ⟨0, 0, 0⟩

/-- A thread after reset: it holds no work, and every register holds its reset value. DESIGN CHOICE, assumption 4. -/
def Thread.reset : Thread where
  run := .free
  pc := 0
  regs := []
  fregs := []
  dacc := []
  fl := .zero
  ts := 0
  shadow := none
  cnt := 0
  es := .zero
  wsel := 0
  wd := 0
  lp0 := .reset
  lp1 := .reset
  lp2 := .reset
  fps := 0
  fpepc := 0
  fpOut := []
  fpBefore := 0
  sepc := 0
  sefl := .zero
  sets := 0
  up := .reset
  down := .reset
  xceil := 0
  mc := none
  lazySave := none
  lazyOuter := []
  sb := []
  irqs := []
  posts := []
  consist := none
  releasing := false
  fetchLine := none

def Cluster.reset : Cluster where
  released := false
  napping := false
  held := false
  lines := []
  ccc := 0

def Mem.reset : Mem where
  bytes := []
  marks := []
  hbmUpset := []
  sramUpset := []

def RptEntry.reset : RptEntry := ⟨false, false, 0, 0, 0⟩

def Share.reset : Share where
  ckpts := []
  recs := []
  undone := []
  acct := []
  ovf := false

def Replay.reset : Replay where
  field := 0
  imported := false
  len := 0
  recs := []
  endAt := 0
  goAt := 0
  resp := []
  inside := false
  thr := []
  clu := .reset
  btb := []
  mem := .reset

def Trg.reset : Trg where
  pend := none
  clusters := 0
  window := 0
  arm := false
  region := 0
  shares := []
  frozen := none
  replay := .reset

def Timer.reset : Timer := ⟨false, 0, 0⟩

def SigBox.reset : SigBox where
  power := .off
  resetN := true
  kind := 0
  slot1 := false
  floor := 0
  rngStopped := false
  rngReqs := 0
  log := []
  caution := 0
  thermal := 0
  hot := 0
  vstep := 0
  avs := false
  startTod := 0
  ilk := []
  rwe := []
  rws := []
  copies := []
  routes := []
  taken := []
  timers := []
  mbxA := none
  mbxB := none
  linkA := false
  linkB := false
  rst := none
  rstNext := none
  wordHeld := false
  scan := none
  strap := 0
  coreCode := []
  hubCode := []

def QDesc.reset : QDesc := ⟨0, 0, 0, 0, false, false, 0, 0, 0, 0⟩
def Win.reset : Win := ⟨0, []⟩

def Hub.reset : Hub where
  recs := []
  nextRec := 0
  waiting := []
  dgrams := []
  ackWait := []
  peers := []
  queues := []
  used := []
  wins := []
  posts := []
  results := []
  nextTag := 0
  markers := []

/-- A track no Timetable has named: no ring ID owns it (16 is none), and it is FOREIGN. -/
def Track.reset : Track where
  owner := 16
  home0 := 16
  state := .foreign
  home := 0
  target := 0
  reason := 0
  marks := 0
  pin := none
  occ := false
  waiting := []
  posts := 0
  cposts := 0
  recs := 0
  bmcnt := 0
  c := 0
  bmc := 0
  streak := 0
  leaving := none

def Load.reset : Load := ⟨0, 0, 0⟩

def Yard.reset : Yard where
  tracks := []
  hold := []
  pinq := []
  gen := 0
  moves := []
  loads := []
  logTail := 0
  snap := none
  barred := 0

def Jnl.reset : Jnl where
  next := 0
  epoch := 0
  committed := 0
  digest := []
  lastSeal := []
  lastEntry := 0
  count := 0
  first := 0
  units := []
  nextId := 0
  preds := []
  sels := []
  acks := []
  notices := []
  markDue := false
  signing := none
  tickAt := none
  markAt := none

def Port.reset : Port where
  up := false
  fibres := 0
  heldDown := false
  first := false
  txq := []
  store := []
  fseq := 0
  expect := 0
  nak := false

def Replica.reset : Replica where
  next := none
  digest := []
  epoch := 0
  mode := none
  units := []
  sealBytes := []
  notice := []
  committed := 0
  seeded := false
  broken := false
  tail := []
  wins := []

def Ring.reset : Ring where
  state := .out
  live := 0
  adopted := 0
  fmtcur := 1
  cut := none
  east := .reset
  west := .reset
  stream := []
  seeding := []
  seedLines := 0
  replicas := []
  beats := []
  silence := 0
  greeted := false
  mute := 0
  adopting := []
  pendingMemb := []
  handing := none
  resume := []
  active := false
  caughtUp := false
  gaveUp := false
  seed := none
  leaveSent := false
  transfers := []
  nextTid := 0
  poolUsed := []
  lupd := none
  inserted := false
  strange := false
  twin := false
  nearEast := []
  nearWest := []
  passing := false

def TStart.reset : TStart := ⟨.reset, .reset, 0, 0⟩
def PortCfg.reset : PortCfg := ⟨0, 0, 0, 0, 0, 0, 0⟩

def Tt.reset : Tt where
  ringId := 0
  n := 0
  ringname := 0
  hashKey := []
  pools := []
  threads := []
  poolBase := 0
  poolLines := 0
  logBase := 0
  logSize := 0
  sources := []
  ports := []
  classes := []
  digest := []
  gen := 0
  fmtread := 0
  cpDigest := []
  clpDigest := []

/-- The device before its first start. -/
def Dev.reset : Dev where
  thr := []
  clu := []
  btb := []
  mem := .reset
  ctl := []
  rpt := []
  gated := []
  trg := .reset
  hub := .reset
  yard := .reset
  jnl := .reset
  ring := .reset
  tt := .reset
  box := .reset
  tod := 0
  edges := []
  out := []
  free := 0

/-- The machine right after reset: the device before its first start, and no command waiting. -/
def State.reset : State where
  dev := .reset
  pending := []

end Sys2Proof.Machine
end

