-- ==== Sys2Proof/Machine/Ctl.lean ====
section
/-! DEFINITION. The named operations on threads, clusters, control-space registers and free values: the one home of each. -/
namespace Sys2Proof.Machine

open Sys2Proof

/-- Thread `g` (R13). -/
def Dev.thread (d : Dev) (g : Nat) : Thread := SMap.get (fun _ => Thread.reset) d.thr g
/-- The device with thread `g` as `t`. -/
def Dev.setThread (d : Dev) (g : Nat) (t : Thread) : Dev :=
  { d with thr := SMap.set (fun _ => Thread.reset) d.thr g t }

/-- Cluster `c`. -/
def Dev.cluster (d : Dev) (c : Nat) : Cluster := SMap.get (fun _ => Cluster.reset) d.clu c
/-- The device with cluster `c` as `x`. -/
def Dev.setCluster (d : Dev) (c : Nat) (x : Cluster) : Dev :=
  { d with clu := SMap.set (fun _ => Cluster.reset) d.clu c x }

/-- The cluster, core of the device, and thread of the cluster, of thread `g` (R13, R14). -/
def clusterOf (g : Nat) : Nat := g / 96
def coreOf (g : Nat) : Nat := g / 8
def localOf (g : Nat) : Nat := g % 96

/-- The value the register at live offset `o` holds (R436). -/
def Dev.reg (d : Dev) (o : Nat) : Word := SMap.get regReset d.ctl o
/-- The device with the register at live offset `o` holding `v`. -/
def Dev.setReg (d : Dev) (o : Nat) (v : Word) : Dev := { d with ctl := SMap.set regReset d.ctl o v }
/-- The field `[lo + n - 1 : lo]` of a register. -/
def Dev.rf (d : Dev) (o lo n : Nat) : Nat := fld (d.reg o) lo n
/-- Hardware writes a field of a register. -/
def Dev.setRf (d : Dev) (o lo n v : Nat) : Dev := d.setReg o (setFld (d.reg o) lo n v)
/-- Bit `i` of a register. -/
def Dev.rb (d : Dev) (o i : Nat) : Bool := bit (d.reg o) i
/-- Hardware writes bit `i` of a register. -/
def Dev.setRb (d : Dev) (o i : Nat) (b : Bool) : Dev := d.setRf o i 1 b.toNat
/-- A counter field counts `k` more, saturating at all ones. -/
def Dev.count (d : Dev) (o lo n : Nat) (k : Nat := 1) : Dev := d.setRf o lo n (sat (2 ^ n - 1) (d.rf o lo n + k))

/-- The next free value, and the device that has drawn it. DESIGN CHOICE, assumption 6. -/
def Dev.draw (d : Dev) : Word × Dev := (Config.freeWord d.free, { d with free := d.free + 1 })

/-- Whether the inputs of cluster `c` are captured now (R495): the state is capturing, and the cluster was captured when capture was
armed. A napping cluster is not recorded (R537). -/
def Dev.capturing (d : Dev) (c : Nat) : Bool :=
  decide (d.rf rTrgStatus 0 3 = 1) && d.trg.clusters.testBit c && !(d.cluster c).napping

/-- The stamp of cluster `c` (R494). -/
def Dev.stamp (d : Dev) (c : Nat) : Nat := (d.cluster c).ccc / 10 % 2 ^ 48

def Dev.share (d : Dev) (c : Nat) : Share := SMap.get (fun _ => Share.reset) d.trg.shares c
def Dev.setShare (d : Dev) (c : Nat) (x : Share) : Dev :=
  { d with trg := { d.trg with shares := SMap.set (fun _ => Share.reset) d.trg.shares c x } }

/-- One input of cluster `c` written as a capture record (R495, R496), stamped with the cluster's CCC. DEDUCED, assumption 51. -/
def Dev.capture (d : Dev) (c kind loc sub addr : Nat) (payload : List Byte) : Dev :=
  if d.capturing c then
    d.setShare c { d.share c with recs := (d.share c).recs ++ [⟨d.stamp c, kind, loc, sub, addr, payload⟩] }
  else d

/-- A single-signal crossing into cluster `c` (R495). -/
def Dev.cross (d : Dev) (c signal : Nat) : Dev := d.capture c 0x0A 0x7F signal 0 []

/-- The payload of a line (R495, R496): poisoned granules are written as zero bytes and set in the mask. -/
def linePayload (bs : List PByte) : List Byte :=
  let bad := fun g => ((bs.drop (8 * g)).take 8).any PByte.poison
  ((List.range 8).map (fun g => if bad g then leBytes 8 0 else ((bs.drop (8 * g)).take 8).map PByte.val)).flatten
    ++ leBytes 16 (((List.range 8).map (fun g => (bad g).toNat * 2 ^ g)).sum)

/-- The first write to the store line at address `a` since the last checkpoint (R499), which still holds `old`. -/
def Dev.undo (d : Dev) (c a : Nat) (old : List PByte) : Dev :=
  if d.capturing c && !(d.share c).undone.contains a then
    let d := d.capture c 0x80 0x7F 0 a (linePayload old)
    d.setShare c { d.share c with undone := a :: (d.share c).undone }
  else d

/-- The first write by the cluster's engine to an account line since the last checkpoint (R499). -/
def Dev.acctUndo (d : Dev) (c a : Nat) (old : List PByte) : Dev :=
  if d.capturing c && !(d.share c).acct.contains a then
    let d := d.capture c 0x81 0x7F 0 a (linePayload old)
    d.setShare c { d.share c with acct := a :: (d.share c).acct }
  else d

/-- A thread's read of `n` bytes at `a` that its cluster store does not answer arrives as fabric responses (R495): HBM lines not held
there, and the hub windows, of which a line arrives in part. -/
def Dev.captureReads (d : Dev) (g a n : Nat) (read : Nat → List PByte) : Dev :=
  let c := clusterOf g
  let hub := decide (Config.recBase ≤ a ∧ a < Config.ctlBase)
  if d.capturing c && decide (n ≠ 0) && (decide (a < Config.hbmEnd) || hub) then
    (List.range ((a + n - 1) / 64 + 1 - a / 64)).foldl (fun d i =>
      let l := a / 64 + i
      if hub || !(d.cluster c).lines.any (fun x => x.line == l) then
        d.capture c 2 (localOf g) (if hub then 4 else 0) (64 * l) (linePayload (read l))
      else d) d
  else d

/-- IEEE 1588 time in nanoseconds (R523). -/
def Dev.now (d : Dev) : Nat := d.tod / 3000000000 % 2 ^ 64

/-- The freeze instant of a trigger that comes now, in ns (R504): POSTTRIG µs on. -/
def Dev.freezeAt (d : Dev) : Nat := d.now + 1000 * d.rf rTrgCtl 12 8

/-- A trigger of the Train Register (R503): while capturing, the first trigger whose TRIGMASK bit is 1 waits for its
freeze instant; a trigger after the first only counts in LATE (R504). -/
def Dev.trigger (d : Dev) (code cluster localId tag : Nat) : Dev :=
  let state := d.rf rTrgStatus 0 3
  if d.rb rTrgCtl (20 + code - 1) = false then d
  else if state = 1 ∧ d.trg.pend = none then
    { d with trg := { d.trg with pend := some ⟨code, cluster, localId, tag, if cluster < 32 then d.stamp cluster else 0, d.freezeAt⟩ } }
  else if state = 1 ∨ state = 2 ∨ state = 3 then d.count rTrgStatus 56 8
  else d

/-- Bytes padded with zeros to `n`. -/
def padTo (n : Nat) (bs : List Byte) : List Byte := (bs ++ List.replicate (n - bs.length) 0#8).take n

/-- The PWR_RSTCMD action in progress (R533), and the clusters and threads that it stops (R531, R532, R536). -/
def Dev.rstOp (d : Dev) : Nat := match d.box.rst with | some w => fld w 0 3 | none => 0
def Dev.resetting (d : Dev) (c : Nat) : Bool :=
  match d.box.rst with
  | some w => (decide (fld w 0 3 = 2) && bit w (32 + c)) || decide (fld w 0 3 = 4)
  | none => false
/-- Cluster `c` is in a cluster reset (R531). -/
def Dev.inReset (d : Dev) (c : Nat) : Bool := decide (d.rstOp = 2) && d.resetting c
def Dev.stopping (d : Dev) (g : Nat) : Bool :=
  match d.box.rst with
  | some w => (decide (fld w 0 3 = 1 ∧ fld w 16 12 = g)) || d.resetting (clusterOf g)
  | none => false

/-- Whether cluster `c` is the lab cluster of a replay (R510). -/
def Dev.replaying (d : Dev) (c : Nat) : Bool := decide (d.rf rTrgRplCtl 13 3 ≠ 0 ∧ d.rf rTrgRplCtl 8 5 = c)

/-- What the detached cluster of a replay does (R510, R512): it acts as the field cluster, on its own threads, stores and memory, and
nothing of it reaches the device. A UE in it sets RPLUE (R509). DEDUCED, assumption 56. -/
def Dev.detached (d : Dev) (f : Dev → Dev) : Dev :=
  let x := d.trg.replay
  let e := f { d with
    thr := x.thr, clu := SMap.set (fun _ => Cluster.reset) [] x.field x.clu, btb := x.btb, mem := x.mem, gated := [],
    box := { d.box with rst := none }, trg := { d.trg with replay := { x with inside := true } } }
  let d' := { d with
    trg := { d.trg with replay := { x with thr := e.thr, clu := e.cluster x.field, btb := e.btb, mem := e.mem, resp := e.trg.replay.resp } }
    free := e.free }
  if e.rf rMicStatus 24 16 = d.rf rMicStatus 24 16 then d' else d'.setRb rTrgStatus 7 true

/-- An event of thread `g`, as a change of the device: a thread of the lab cluster of a replay acts as the field thread, and only while
the replay runs (R511). -/
def Dev.onThread (d : Dev) (g : Nat) (f : Nat → Dev → Dev) : Dev :=
  if d.replaying (clusterOf g) then
    (if d.rf rTrgRplCtl 13 3 = 3 then d.detached (f (96 * d.trg.replay.field + localOf g)) else d)
  else f g d

end Sys2Proof.Machine
end

