-- ==== Sys2Proof/Machine/Integrity.lean ====
section
/-! DEFINITION. Memory integrity (chapter 13): what a read finds in a stored codeword, the repeat table, the error log, and what a write
leaves. -/
namespace Sys2Proof.Machine

open Sys2Proof

/-- A byte of memory that nothing has written reads 0. DESIGN CHOICE, assumption 5. -/
def byteDefault (_ : Nat) : Byte := 0
/-- A granule that nothing has poisoned is not marked. -/
def markDefault (_ : Nat) : Bool := false

/-- The byte at an address, and the device with it changed. -/
def Dev.byteAt (d : Dev) (a : Nat) : Byte := SMap.get byteDefault d.mem.bytes a
def Dev.setByte (d : Dev) (a : Nat) (b : Byte) : Dev :=
  { d with mem := { d.mem with bytes := SMap.set byteDefault d.mem.bytes a b } }
/-- The poison mark of granule `q` (R417), and the device with it changed. -/
def Dev.markOf (d : Dev) (q : Nat) : Bool := SMap.get markDefault d.mem.marks q
def Dev.setMark (d : Dev) (q : Nat) (b : Bool) : Dev :=
  { d with mem := { d.mem with marks := SMap.set markDefault d.mem.marks q b } }
/-- The upsets in the stored codeword of HBM line `l`, as symbol positions (R404). DESIGN CHOICE, assumption 14. -/
def Dev.hbmUps (d : Dev) (l : Nat) : List Nat := SMap.get (fun _ => []) d.mem.hbmUpset l
def Dev.setHbmUps (d : Dev) (l : Nat) (u : List Nat) : Dev :=
  { d with mem := { d.mem with hbmUpset := SMap.set (fun _ => []) d.mem.hbmUpset l u } }
/-- The upsets in the stored SRAM word at address `w`, as bit positions 0-71 (R408). -/
def Dev.sramUps (d : Dev) (w : Nat) : List Nat := SMap.get (fun _ => []) d.mem.sramUpset w
def Dev.setSramUps (d : Dev) (w : Nat) (u : List Nat) : Dev :=
  { d with mem := { d.mem with sramUpset := SMap.set (fun _ => []) d.mem.sramUpset w u } }

/-- What a read of a stored codeword or word finds (R406, R409). -/
inductive Finding
  | clean
  | corrected (die : Nat)
  | poisoned (ce : Option Nat)
  | uncorrectable
  deriving DecidableEq, Repr

/-- The position's index among the 80 stored symbols (R405): data bytes, then check bytes. -/
def storedIndex (pos : Nat) : Nat := if pos < 64 then pos else pos - 1

/-- The DRAM die that holds a symbol of line `l` (R405). -/
def dieOf (l pos : Nat) : Nat := (2 * (l / 4 % 6) + storedIndex pos / 8) % 12

/-- A position that is stored: every one but the poison mask's (R404). -/
def storedPos (pos : Nat) : Bool := decide (pos ≤ 80 ∧ pos ≠ 64)

/-- The die that MIC_ERASE declares erased for the stack of line `l`, where the line has symbols on it (R407). -/
def erasedDie (d : Dev) (l : Nat) : Option Nat :=
  let e := d.rf (rHbmStatus (l % 4)) 20 4
  if e < 12 ∧ (e + 12 - 2 * (l / 4 % 6) % 12) % 12 < 10 then some e else none

/-- R406: the read of HBM line `l` with upsets `ups` and poison mask present or not. -/
def hbmDecode (d : Dev) (l : Nat) (ups : List Nat) (poison : Bool) : Finding :=
  let er := erasedDie d l
  let out := ups.filter (fun p => er ≠ some (dieOf l p))
  let inside := ups.filter (fun p => er = some (dieOf l p))
  let e := if er.isSome then 8 else 0
  let t := out.length + poison.toNat
  let die : Nat := match out.getLast? with | some p => dieOf l p | none => 15
  if 2 * t + e ≤ 16 then
    if poison then .poisoned (if ups.isEmpty then none else some die)
    else if out.isEmpty && inside.isEmpty then .clean
    else .corrected die
  else .uncorrectable

/-- R409: the read of an SRAM word with flipped bits `ups` and a poison mark or none. Every column has odd weight (R408): the syndrome
of an even number of them is zero or no column, and that of an odd number is not zero. DESIGN CHOICE, assumption 13. -/
def sramDecode (ups : List Nat) (poison : Bool) : Finding :=
  match ups, poison with
  | [], false => .clean
  | [], true => .poisoned none
  | [_], false => .corrected 15
  | [_], true => .uncorrectable
  | [_, _], false => .uncorrectable
  | u, p =>
    let k := Config.sramSyndrome u p
    if (u.length + p.toNat) % 2 = 0 then (if k = 0 then .clean else .uncorrectable)
    else if k = 0 then .corrected 15
    else if k = 1 then .poisoned none
    else .uncorrectable

/-- Whether any of the eight granules of HBM line `l` is marked. -/
def Dev.lineMarked (d : Dev) (l : Nat) : Bool := (List.range 8).any (fun i => d.markOf (8 * l + i))

/-- Whether some cluster store holds HBM line `l` (R302). -/
def Dev.cachedAny (d : Dev) (l : Nat) : Bool := d.clu.any (fun c => c.2.lines.any (fun x => x.line == l))

/-- Whether the byte at `a` is delivered poisoned because its stored line or word is uncorrectable (R406, R409). -/
def Dev.ueAt (d : Dev) (a : Nat) : Bool :=
  if a < Config.hbmEnd then
    !d.cachedAny (a / 64) && decide (hbmDecode d (a / 64) (d.hbmUps (a / 64)) (d.lineMarked (a / 64)) = .uncorrectable)
  else
    match sramDecode (d.sramUps (a / 8 * 8)) (d.markOf (a / 8)) with
    | .uncorrectable => true
    | .poisoned _ => true
    | _ => false

/-- The byte at `a` as a read delivers it (R406, R409, R417). -/
def Dev.readByte (d : Dev) (a : Nat) : PByte := ⟨d.byteAt a, d.markOf (a / 8) || d.ueAt a⟩

/-- `n` bytes from `a` as a read delivers them, in ascending address. -/
def Dev.readBytes (d : Dev) (a n : Nat) : List PByte := (List.range n).map (fun i => d.readByte (a + i))

/-- The bytes alone, and whether any of them is poisoned. -/
def vals (bs : List PByte) : List Byte := bs.map PByte.val
def anyPoison (bs : List PByte) : Bool := bs.any PByte.poison

/-- Clean bytes. -/
def clean (bs : List Byte) : List PByte := bs.map (fun b => ⟨b, false⟩)
/-- Bytes that all carry one mark. -/
def withMark (p : Bool) (bs : List Byte) : List PByte := bs.map (fun b => ⟨b, p⟩)

/-- Entry `i` of the repeat table (R412). -/
def Dev.rptAt (d : Dev) (i : Nat) : RptEntry := SMap.get (fun _ => RptEntry.reset) d.rpt i
def Dev.setRpt (d : Dev) (i : Nat) (e : RptEntry) : Dev :=
  { d with rpt := SMap.set (fun _ => RptEntry.reset) d.rpt i e }

/-- The entry a new address takes (R412): the lowest invalid one, else the unreported one of lowest COUNT, lowest index on ties. -/
def Dev.rptVictim (d : Dev) : Option Nat :=
  match (List.range 256).find? (fun i => (d.rptAt i).valid = false) with
  | some i => some i
  | none =>
    (List.range 256).foldl (fun best i =>
      if (d.rptAt i).reported then best
      else match best with
        | none => some i
        | some j => if (d.rptAt i).count < (d.rptAt j).count then some i else best) none

/-- COUNT reaches the threshold: the entry is reported (R412). -/
def Dev.rptReport (d : Dev) (i : Nat) : Dev :=
  let e := d.rptAt i
  if d.rf rMicCtl 8 8 ≤ e.count ∧ e.reported = false then
    (d.setRpt i { e with reported := true }).setRb rMicStatus 0 true
  else d

/-- A correctable error is recorded against an address (R412). -/
def Dev.recordCe (d : Dev) (addr die : Nat) : Dev :=
  let d := d.count rMicStatus 40 24
  match (List.range 256).find? (fun i => (d.rptAt i).valid && (d.rptAt i).addr == addr) with
  | some i => (d.setRpt i { d.rptAt i with count := sat 255 ((d.rptAt i).count + 1), die := die }).rptReport i
  | none =>
    match d.rptVictim with
    | some i => (d.setRpt i ⟨true, false, die, 1, addr⟩).rptReport i
    | none => d.setRb rMicStatus 3 true

/-- The entries that hold an address become invalid: its line or word has been rewritten whole (R412). -/
def Dev.rptForget (d : Dev) (addr : Nat) : Dev :=
  { d with rpt := d.rpt.filter (fun e => !(e.2.valid && e.2.addr == addr)) }

/-- MIC_UELOG keeps the first of what UEV and EGRESS report (R425). -/
def Dev.ueLog (d : Dev) (src die addr : Nat) : Dev :=
  if d.rb rMicStatus 2 = false ∧ d.rb rMicStatus 4 = false then
    d.setReg rMicUelog (word (src * 2 ^ 62 + die * 2 ^ 58 + addr % 2 ^ 48))
  else d

/-- A UE is counted and logged (R424, R425). -/
def Dev.countUe (d : Dev) (src addr : Nat) : Dev :=
  ((d.ueLog src 15 addr).setRb rMicStatus 2 true).count rMicStatus 24 16

/-- An agent consumes poison (R419): logged, EGRESS set, and trigger 3 of the Train Register. -/
def Dev.agentPoison (d : Dev) (addr : Nat) : Dev :=
  (((d.ueLog 3 15 addr).setRb rMicStatus 4 true)).trigger 3 0xFF 0xFF 0

/-- The accounting of a read of HBM line `l` by a controller (R406, R412, R424, R429); `scrub`: a patrol read. -/
def Dev.hbmRead (d : Dev) (l : Nat) (scrub : Bool) : Dev :=
  let h := l % 4
  let d := d.count (rHbmRdlines h) 0 64
  match hbmDecode d l (d.hbmUps l) (d.lineMarked l) with
  | .clean => d
  | .corrected die => (d.count (rHbmErr h) 32 32).recordCe (64 * l) die
  | .poisoned none => d.count (rHbmErr h) 0 16
  | .poisoned (some die) => ((d.count (rHbmErr h) 0 16).count (rHbmErr h) 32 32).recordCe (64 * l) die
  | .uncorrectable => (d.count (rHbmErr h) 16 16).countUe (if scrub then 2 else 0) (64 * l)

/-- The cluster whose store or code store holds address `a` (R297). -/
def storeCluster (a : Nat) : Option Nat :=
  if Config.storeBase ≤ a ∧ a < Config.storeBase + 0x20000000 then some ((a - Config.storeBase) / 0x1000000)
  else if Config.codeBase ≤ a ∧ a < Config.codeBase + 0x20000000 then some ((a - Config.codeBase) / 0x1000000)
  else none

/-- A poisoned result of a store read is recorded (R420). -/
def Dev.notePoison (d : Dev) (w : Nat) : Dev :=
  match storeCluster w with
  | some c => d.capture c 0x0D 0x7F 0 w []
  | none => d

/-- The accounting of a read of the SRAM word at `w` (R409, R412, R424). -/
def Dev.sramRead (d : Dev) (w : Nat) (scrub : Bool) : Dev :=
  let d := if scrub = false ∧ (d.markOf (w / 8) = true ∨ decide (sramDecode (d.sramUps w) (d.markOf (w / 8)) = .uncorrectable) = true) then d.notePoison w else d
  match sramDecode (d.sramUps w) (d.markOf (w / 8)) with
  | .corrected die => d.recordCe w die
  | .uncorrectable => d.countUe (if scrub then 2 else 1) w
  | _ => d

/-- An agent reads `n` bytes of HBM at `a` (R406, R424): the lines that no cluster store holds are read from their stack. -/
def Dev.agentRead (d : Dev) (a n : Nat) : Dev :=
  if n = 0 then d
  else (List.range ((a + n - 1) / 64 + 1 - a / 64)).foldl (fun d i => if d.cachedAny (a / 64 + i) then d else d.hbmRead (a / 64 + i) false) d

/-- The accounting of a thread's read of `n` bytes at `a`: each SRAM word read is decoded (R409), and each HBM line that no cluster
store holds (R406). -/
def Dev.noteRead (d : Dev) (a n : Nat) : Dev :=
  if a < Config.hbmEnd then d.agentRead a n
  else if n = 0 then d
  else (List.range ((a + n - 1) / 8 + 1 - a / 8)).foldl (fun d i => d.sramRead (8 * (a / 8 + i)) false) d

/-- The SRAM word at `w` with three or more errors that the code takes for none or for one (R409): what it is then taken to hold is
open. DESIGN CHOICE, assumption 13. -/
def Dev.mistakeWord (d : Dev) (w : Nat) : Dev :=
  let u := d.sramUps w
  let p := d.markOf (w / 8)
  if decide (u.length + p.toNat < 3) || decide (sramDecode u p = .uncorrectable) then d
  else (List.range 8).foldl (fun d i => d.setByte (w + i) (d.byteAt (w + i) ^^^ Config.sramMistake u p i)) d

/-- Upsets that a read finds come to lie in the stored codewords (R404, R408). -/
def Dev.addUpset (d : Dev) (u : Upset) : Dev :=
  if u.addr < Config.hbmEnd then
    let l := u.addr / 64
    if storedPos u.sym && !(d.hbmUps l).contains u.sym then d.setHbmUps l (d.hbmUps l ++ [u.sym]) else d
  else
    let w := u.addr / 8 * 8
    if decide (u.sym < 72) && !(d.sramUps w).contains u.sym then (d.setSramUps w (d.sramUps w ++ [u.sym])).mistakeWord w else d

def Dev.addUpsets (d : Dev) (us : List Upset) : Dev := us.foldl Dev.addUpset d

/-- HBM line `l` is encoded afresh (R414): a partial write onto an uncorrectable line first takes every granule as poisoned. -/
def Dev.healLine (d : Dev) (l : Nat) (whole : Bool) : Dev :=
  if (d.hbmUps l).isEmpty then d
  else
    let ue := decide (hbmDecode d l (d.hbmUps l) (d.lineMarked l) = .uncorrectable) && !whole
    let d := if ue then
      (List.range 8).foldl (fun d i => d.setMark (8 * l + i) true) ((d.count (rHbmErr (l % 4)) 16 16).countUe 0 (64 * l))
      else d
    (d.setHbmUps l []).rptForget (64 * l)

/-- The SRAM word at `w` is encoded afresh (R414). -/
def Dev.healWord (d : Dev) (w : Nat) (whole : Bool) : Dev :=
  if (d.sramUps w).isEmpty then d
  else
    let ue := decide (sramDecode (d.sramUps w) (d.markOf (w / 8)) = .uncorrectable) && !whole
    let d := if ue then (d.countUe 1 w).setMark (w / 8) true else d
    (d.setSramUps w []).rptForget w

/-- The part of a write that falls into granule `q`: its marks follow R414. -/
def Dev.markGranule (d : Dev) (q a : Nat) (bs : List PByte) : Dev :=
  let inside := (List.range 8).filter (fun i => decide (a ≤ 8 * q + i ∧ 8 * q + i < a + bs.length))
  let poisoned := inside.any (fun i => match bs[8 * q + i - a]? with | some b => b.poison | none => false)
  if poisoned then d.setMark q true
  else if inside.length = 8 then d.setMark q false
  else d

/-- The bytes alone are written. -/
def Dev.pokeBytes (d : Dev) : Nat → List PByte → Dev
  | _, [] => d
  | a, b :: bs => (d.setByte a b.val).pokeBytes (a + 1) bs

/-- Undo records for the store lines that a write touches (R499). -/
def Dev.undoStore (d : Dev) (a n : Nat) : Dev :=
  match storeCluster a with
  | some c => (List.range ((a + n - 1) / 64 + 1 - a / 64)).foldl (fun d i =>
      d.undo c (64 * (a / 64 + i)) (d.readBytes (64 * (a / 64 + i)) 64)) d
  | none => d

/-- A write of consecutive bytes, with healing and poison by R414. Each SRAM word it touches, and each HBM line that no
cluster store holds, is encoded afresh (a held line is encoded afresh when it is written back); each granule it touches is
marked or cleared. -/
def Dev.writeBytes (d : Dev) (a : Nat) (bs : List PByte) : Dev :=
  if bs.length = 0 then d
  else
    let last := a + bs.length - 1
    let d := d.undoStore a bs.length
    let d :=
      if a < Config.hbmEnd then
        (List.range (last / 64 + 1 - a / 64)).foldl (fun d i =>
          let l := a / 64 + i
          if d.cachedAny l then d
          else (d.healLine l (decide (a ≤ 64 * l ∧ 64 * l + 63 ≤ last))).count (rHbmWrlines (l % 4)) 0 64) d
      else
        (List.range (last / 8 + 1 - a / 8)).foldl (fun d i =>
          let w := 8 * (a / 8 + i)
          d.healWord w (decide (a ≤ w ∧ w + 7 ≤ last))) d
    let d := (List.range (last / 8 + 1 - a / 8)).foldl (fun d i => d.markGranule (a / 8 + i) a bs) d
    d.pokeBytes a bs

end Sys2Proof.Machine
end

