-- ==== Sys2Proof/Machine/Access.lean ====
section
/-! DEFINITION. The address map, storage keys and the check of every thread access (chapter 10). -/
namespace Sys2Proof.Machine

open Sys2Proof

/-- What lies at an address (R297). Cluster and code stores carry their cluster. -/
inductive Region
  | hbm
  | scratch (n : Nat)
  | cache (n : Nat)
  | slots (n : Nat)
  | code (n : Nat)
  | record
  | keys
  | control
  | bitAlias
  | none
  deriving DecidableEq, Repr

/-- Entries of the key store window (R307). -/
def keyOffsetOk (o : Nat) : Bool := decide (o ≤ 0x6B49D1) || decide (0x6C0000 ≤ o ∧ o ≤ 0x6C9FFF)

/-- What lies at address `a` (R297, R300). -/
def Dev.region (d : Dev) (a : Nat) : Region :=
  if a < Config.hbmEnd then .hbm
  else if Config.storeBase ≤ a ∧ a < Config.storeBase + 0x20000000 then
    let n := (a - Config.storeBase) / 0x1000000
    let o := a % 0x1000000
    if 0x400000 ≤ o then .none
    else if 0x3FB000 ≤ o then .slots n
    else if o < 0x10000 * d.rf (rClSplit n) 0 6 then .scratch n
    else .cache n
  else if Config.codeBase ≤ a ∧ a < Config.codeBase + 0x20000000 then
    if a % 0x1000000 < 0x100000 then .code ((a - Config.codeBase) / 0x1000000) else .none
  else if Config.recBase ≤ a ∧ a < Config.recBase + 0x400000 then .record
  else if Config.keyBase ≤ a ∧ a < Config.keyBase + 0x700000 then
    if keyOffsetOk (a - Config.keyBase) then .keys else .none
  else if Config.ctlBase ≤ a ∧ a < Config.ctlBase + 0x4000000 then .control
  else if Config.aliasBase ≤ a ∧ a < Config.aliasBase + 0x200000 then .bitAlias
  else .none

/-- The address of the key byte of the frame that holds `a` (R305, R307), for an address in a frame. -/
def Dev.keyAddr (d : Dev) (a : Nat) : Option Nat :=
  match d.region a with
  | .hbm => some (Config.keyBase + a / 0x4000)
  | .scratch n | .cache n | .slots n => some (Config.keyBase + 0x6C0000 + 1024 * n + a / 0x1000 % 0x400)
  | .code n => some (Config.keyBase + 0x6C8000 + 256 * n + a / 0x1000 % 0x100)
  | _ => none

/-- The access kinds of R310: the column of R309, with the access code of R282 held apart. -/
inductive Acc
  | fetch | load | store | atomic
  deriving DecidableEq, Repr

/-- Who makes an access: cluster, world (Down: true), supervisor level, key. -/
structure Who where
  cluster : Nat
  world : Bool
  sup : Bool
  key : Nat
  deriving DecidableEq, Repr

/-- R309: whether a key byte permits an access. -/
def keyPermits (kb : Byte) (w : Who) (acc : Acc) : Bool :=
  let open_ := kb.getLsbD 2
  if kb.getLsbD 3 ≠ w.world then open_ && decide (acc = .load)
  else if w.key = 0 then w.sup
  else if kb.toNat / 16 = w.key then true
  else open_ && decide (acc = .load ∨ acc = .fetch)

/-- Why an access is refused. -/
inductive Refused
  /-- ADDRESS: the byte is not populated for this access (R298, R299, R301, R304, R322). -/
  | address
  /-- KEY by the check of R309 or R308: counted in REFUSALS. -/
  | key
  /-- KEY because the key byte is poisoned (R419): counted in POISONED. -/
  | poisonedKey
  /-- KEY by a hub window's own rule or by the mode test of control space (R299, R322). -/
  | window
  deriving DecidableEq, Repr

/-- Whether a byte is populated for an access (R298, R299, R301, R304, R322). Control space is reached only by the loads and stores
of R322, which do not come here. -/
def Dev.populated (d : Dev) (w : Who) (acc : Acc) (a : Nat) : Bool :=
  match d.region a with
  | .hbm => decide (acc ≠ .fetch)
  | .scratch n | .slots n => decide (acc ≠ .fetch ∧ n = w.cluster)
  | .code n => decide (acc ≠ .fetch ∨ n = w.cluster)
  | .record | .keys => decide (acc = .load ∨ acc = .store)
  | _ => false

/-- The key rule at a populated byte (R299, R308, R309). -/
def Dev.keyRule (d : Dev) (w : Who) (acc : Acc) (a : Nat) : Option Refused :=
  match d.region a with
  | .record => if acc = .load then none else some .window
  | .keys =>
    if acc = .load then (if w.sup then none else some .window)
    else if w.sup && decide (w.key = 0) && !(d.readByte a).poison && (d.byteAt a).getLsbD 3 == w.world then none
    else some .key
  | _ =>
    match d.keyAddr a with
    | none => some .address
    | some k =>
      if (d.readByte k).poison then some .poisonedKey
      else if keyPermits (d.byteAt k) w acc then none else some .key

/-- The first byte of `n` bytes at `a` that `bad` names. -/
def firstBad (bad : Nat → Option Refused) (a : Nat) : Nat → Option (Nat × Refused)
  | 0 => none
  | n + 1 => match bad a with
    | some r => some (a, r)
    | none => firstBad bad (a + 1) n

/-- One half of an access: the bytes that lie in one 64-byte line. Population comes before the key check (R298, R283). -/
def Dev.checkHalf (d : Dev) (w : Who) (acc : Acc) (a n : Nat) : Option (Nat × Refused) :=
  match firstBad (fun x => if d.populated w acc x then none else some .address) a n with
  | some b => some b
  | none => firstBad (d.keyRule w acc) a n

/-- How many of `n` bytes at `a` lie in the line of `a`. -/
def lineRoom (a n : Nat) : Nat := Nat.min n (64 - a % 64)

/-- Why one byte of an access is refused: population before the key (R283, R298). -/
def Dev.checkByte (d : Dev) (w : Who) (acc : Acc) (x : Nat) : Option Refused :=
  if d.populated w acc x then d.keyRule w acc x else some .address

/-- The check of `n` bytes at `a` (R296, R298, R309, R324): the first byte refused and why. An access that runs past 2^48 is refused at
the first byte whose address bits [63:48] are not 0 (R296); within one line population is checked before any key; an access that a line
end splits is checked byte by byte (R324). DEDUCED, assumption 109. -/
def Dev.checkAccess (d : Dev) (w : Who) (acc : Acc) (a n : Nat) : Option (Nat × Refused) :=
  if n = 0 then none
  else if 2 ^ 48 < a + n then some (Nat.max a (2 ^ 48), .address)
  else if lineRoom a n = n then d.checkHalf w acc a n
  else firstBad (d.checkByte w acc) a n

/-- The key byte of a frame is given USED, and DIRTY by a write (R312). -/
def Dev.touchFrame (d : Dev) (a : Nat) (dirty : Bool) : Dev :=
  match d.keyAddr a with
  | some k => d.setByte k (d.byteAt k ||| (if dirty then 3 else 2))
  | none => d

/-- Every frame that `n` bytes at `a` touch is given USED, and DIRTY by a write (R312). Frames hold at least 4 KiB, so the first
byte and each multiple of 4 KiB after it stand for all. DEDUCED, assumption 25. -/
def Dev.touch (d : Dev) (a n : Nat) (dirty : Bool) : Dev :=
  if n = 0 then d
  else (List.range ((a + n - 1) / 4096 - a / 4096)).foldl
    (fun d i => d.touchFrame (4096 * (a / 4096 + i + 1)) dirty) (d.touchFrame a dirty)

/-- The HBM lines of a cluster that are used become most recently used (R302). -/
def Dev.lruHit (d : Dev) (c : Nat) (a n : Nat) : Dev :=
  if a < Config.hbmEnd ∧ n ≠ 0 then
    let x := d.cluster c
    let used := fun (l : CLine) => decide (a / 64 ≤ l.line ∧ l.line ≤ (a + n - 1) / 64)
    d.setCluster c { x with lines := x.lines.filter used ++ x.lines.filter (fun l => !used l) }
  else d

/-- Whether the cluster holds HBM line `l` writable (R316). -/
def Dev.holdsWritable (d : Dev) (c l : Nat) : Bool :=
  (d.cluster c).lines.any (fun x => x.line == l && x.writable)

/-- Where a cluster store keeps an HBM line that it holds: way by way within the set (R302). -/
def Dev.posAddr (d : Dev) (c : Nat) (x : CLine) : Nat :=
  let sets := d.rf (rClSplit c) 8 14
  Config.storeBase + 0x1000000 * c + 0x10000 * d.rf (rClSplit c) 0 6 + 64 * (16 * (if sets = 0 then 0 else x.line % sets) + x.way)

/-- The undo record of a cached line before it changes or leaves (R499). -/
def Dev.undoLine (d : Dev) (c l : Nat) : Dev :=
  match (d.cluster c).lines.find? (fun x => x.line == l) with
  | some x => d.undo c (d.posAddr c x) (d.readBytes (64 * l) 64)
  | none => d

/-- A write by cluster `c` into a line it holds: the bytes HBM holds are kept until the line is written back (R530). -/
def Dev.keepOld (d : Dev) (c l : Nat) : Dev :=
  let x := d.cluster c
  d.setCluster c { x with lines := x.lines.map (fun y =>
    if y.line = l ∧ y.old = none then { y with old := some (d.readBytes (64 * l) 64) } else y) }

/-- A write of bytes within one line by a cluster's own agents: an HBM line held there becomes dirty in its store. -/
def Dev.clusterWrite (d : Dev) (c a : Nat) (bs : List PByte) : Dev :=
  let d := if a < Config.hbmEnd then (List.range ((a + bs.length - 1) / 64 + 1 - a / 64)).foldl
      (fun d i => (d.undoLine c (a / 64 + i)).keepOld c (a / 64 + i)) d else d
  d.writeBytes a bs

end Sys2Proof.Machine
end

