-- ==== Sys2Proof/Machine/Operands.lean ====
section
/-! DEFINITION. Registers and operands of a thread: the context an instruction runs in, register names (R129-R134), effective addresses
(R255, R296), loads and stores through the store buffer (R315-R325), and how an instruction stops. -/
namespace Sys2Proof.Machine

open Sys2Proof

/-- What an instruction works on: the device, the thread's number, and the thread as it stands. -/
structure Ctx where
  d : Dev
  g : Nat
  t : Thread
  deriving DecidableEq, Repr

/-- An exception of R282: vector, DETAIL and FADDR, and for KEY why the access was refused (R314). -/
structure Exc where
  vec : Nat
  detail : Word
  faddr : Word
  why : Option Refused
  deriving DecidableEq, Repr

/-- Why an instruction does not go on: an exception, with what the instruction has already done; or a condition of R125 that does not
hold, so that nothing happens yet. -/
inductive Stop
  | exc (c : Ctx) (e : Exc)
  | wait
  deriving DecidableEq, Repr

/-- The result of a part of an instruction. -/
abbrev Run (α : Type) := Except Stop α

/-- Raise an exception with what has been done so far. -/
def raise {α : Type} (c : Ctx) (vec : Nat) (detail : Nat) (faddr : Nat := 0) : Run α :=
  .error (.exc c ⟨vec, word detail, word faddr, none⟩)
/-- ILLEGAL of a first word (R264, R267): code and major opcode. -/
def illegal {α : Type} (c : Ctx) (code major : Nat) : Run α := raise c 1 (major * 256 + code)
/-- MACHINE CHECK (R418). -/
def machineCheck {α : Type} (c : Ctx) (detail : Nat) (faddr : Nat := 0) : Run α := raise c 13 detail faddr
/-- The condition of R125 that is named does not hold. -/
def waitUnless (b : Bool) : Run Unit := if b then .ok () else .error .wait

/-- The fields of TS (R133). -/
def Thread.sup (t : Thread) : Bool := bit t.ts 0
def Thread.world (t : Thread) : Bool := bit t.ts 1
def Thread.key (t : Thread) : Nat := fld t.ts 2 4
def Thread.ie (t : Thread) : Bool := bit t.ts 6
def Thread.ipl (t : Thread) : Nat := fld t.ts 8 4
def Thread.dom (t : Thread) : Bool := bit t.ts 12
def Thread.ddm (t : Thread) : Bool := bit t.ts 13
def Thread.dl (t : Thread) : Bool := bit t.ts 14
def Thread.le (t : Thread) : Bool := bit t.ts 15

/-- Who the thread is to the key check (R309). -/
def Ctx.who (c : Ctx) : Who := ⟨clusterOf c.g, c.t.world, c.t.sup, c.t.key⟩

/-- The physical register of P7 of the window `k` windows on (R134-R136): P7 of the next window is Q7 of the current one. -/
def Thread.p7 (t : Thread) (k : Nat) : Nat := 8 + 8 * ((2 * (t.wsel + k)) % 24) + 7

/-- The physical register of P`i` of the current window, in whatever mode the thread is (R90, R134). -/
def Thread.pReg (t : Thread) (i : Nat) : Nat := 8 + 8 * ((2 * t.wsel) % 24) + i

/-- A general register as a physical register (R129, R130, R134): 0 is X0, 1-7 X1-X7, 8-199 the window groups, 200-215 and
216-231 the supervisor banks of the Up and the Down world. -/
def Thread.phys (t : Thread) (r : GReg) : Nat :=
  let n := r.toNat
  if n < 8 then n
  else if n < 24 ∧ t.sup then 200 + (if t.world then 16 else 0) + (n - 8)
  else if n < 16 then 8 + 8 * ((2 * t.wsel) % 24) + (n - 8)
  else if n < 24 then 8 + 8 * ((2 * t.wsel + 1) % 24) + (n - 16)
  else 8 + 8 * ((2 * t.wsel + 2) % 24) + (n - 24)

/-- A physical register; X0 reads as zero (R129). -/
def Thread.physGet (t : Thread) (p : Nat) : Reg := if p = 0 then .zero else SMap.get (fun _ => Reg.zero) t.regs p
/-- A physical register written; a write to X0 is ignored (R129). -/
def Thread.physSet (t : Thread) (p : Nat) (v : Reg) : Thread :=
  if p = 0 then t else { t with regs := SMap.set (fun _ => Reg.zero) t.regs p v }
/-- A general register, by its number in the mode in force. -/
def Thread.greg (t : Thread) (r : GReg) : Reg := t.physGet (t.phys r)
def Thread.setGreg (t : Thread) (r : GReg) (v : Reg) : Thread := t.physSet (t.phys r) v

/-- A floating register. -/
def Thread.freg (t : Thread) (f : FReg) : Reg := SMap.get (fun _ => Reg.zero) t.fregs f.toNat
def Thread.setFreg (t : Thread) (f : FReg) (v : Reg) : Thread :=
  { t with fregs := SMap.set (fun _ => Reg.zero) t.fregs f.toNat v }
/-- A decimal accumulator. -/
def Thread.acc (t : Thread) (k : DReg) : DAcc := SMap.get (fun _ => DAcc.zero) t.dacc k.toNat
def Thread.setAcc (t : Thread) (k : DReg) (v : DAcc) : Thread :=
  { t with dacc := SMap.set (fun _ => DAcc.zero) t.dacc k.toNat v }

/-- The registers of a world (R273). -/
def Thread.worldRegs (t : Thread) (w : Bool) : WorldRegs := if w then t.down else t.up
def Thread.setWorldRegs (t : Thread) (w : Bool) (x : WorldRegs) : Thread :=
  if w then { t with down := x } else { t with up := x }

/-- The loop levels (R145). -/
def Thread.loopLevel (t : Thread) (i : Nat) : LoopLevel := if i = 0 then t.lp0 else if i = 1 then t.lp1 else t.lp2
def Thread.setLoopLevel (t : Thread) (i : Nat) (l : LoopLevel) : Thread :=
  if i = 0 then { t with lp0 := l } else if i = 1 then { t with lp1 := l } else { t with lp2 := l }

/-- The context with another thread state. -/
def Ctx.withT (c : Ctx) (t : Thread) : Ctx := { c with t := t }
/-- The context with another device. -/
def Ctx.withD (c : Ctx) (d : Dev) : Ctx := { c with d := d }
/-- A general register read in a context. -/
def Ctx.r (c : Ctx) (r : GReg) : Reg := c.t.greg r
/-- A general register written in a context. -/
def Ctx.setR (c : Ctx) (r : GReg) (v : Reg) : Ctx := c.withT (c.t.setGreg r v)

/-- A general register given the poison mark with an unspecified value (R251). -/
def Ctx.poisonR (c : Ctx) (r : GReg) : Ctx := (c.withD c.d.draw.2).setR r ⟨c.d.draw.1, true⟩

/-- A base register as an address (R283, R418): a mark is consumed as an address. -/
def Ctx.base (c : Ctx) (r : GReg) : Run Word :=
  if (c.r r).poison then machineCheck c 1 else .ok (c.r r).val

/-- A base register plus a signed displacement (R255). -/
def Ctx.baseDisp {n : Nat} (c : Ctx) (r : GReg) (disp : BitVec n) : Run Nat :=
  match c.base r with
  | .ok b => .ok (b + disp.signExtend 64).toNat
  | .error e => .error e

/-- A refused access as an exception (R282): ADDRESS is vector 5, KEY vector 3, with the access code. -/
def refusal {α : Type} (c : Ctx) (code a : Nat) (r : Refused) : Run α :=
  .error (.exc c ⟨if r = .address then 5 else 3, word code, word a, some r⟩)

/-- The check of an operand of `n` bytes at `a` with its access code (R310), which changes nothing. -/
def Ctx.probeCode (c : Ctx) (acc : Acc) (code a n : Nat) : Run Unit :=
  match c.d.checkAccess c.who acc a n with
  | some (x, r) => refusal c code x r
  | none => .ok ()

/-- The frames that a permitted operand touches are marked (R312). -/
def Ctx.mark (c : Ctx) (acc : Acc) (a n : Nat) : Ctx := c.withD (c.d.touch a n (decide (acc = .store ∨ acc = .atomic)))

/-- The check of an operand of `n` bytes at `a` with its access code (R310); the frames it touches are marked (R312). -/
def Ctx.checkCode (c : Ctx) (acc : Acc) (code a n : Nat) : Run Ctx :=
  match c.probeCode acc code a n with
  | .error e => .error e
  | .ok () => .ok (c.mark acc a n)

/-- The access code of a load or store operand (R282). -/
def Acc.code (acc : Acc) : Nat := match acc with | .fetch => 0 | .load => 1 | _ => 2

/-- The check of a load or store operand, with or without the marks of R312. DEDUCED, assumption 97. -/
def Ctx.probe (c : Ctx) (acc : Acc) (a n : Nat) : Run Unit := c.probeCode acc acc.code a n
def Ctx.check (c : Ctx) (acc : Acc) (a n : Nat) : Run Ctx := c.checkCode acc acc.code a n

/-- Whether a store-buffer entry overlaps `n` bytes at `a`, and whether it covers them. -/
def StoreEntry.overlaps (e : StoreEntry) (a n : Nat) : Bool := decide (e.addr < a + n ∧ a < e.addr + e.data.length)
def StoreEntry.covers (e : StoreEntry) (a n : Nat) : Bool := decide (e.addr ≤ a ∧ a + n ≤ e.addr + e.data.length)

/-- One half of a load (R317): forwarded whole from the youngest overlapping entry, or read from memory when none overlaps;
otherwise the load waits. -/
def Ctx.loadHalf (c : Ctx) (a n : Nat) : Run (List PByte) :=
  match c.t.sb.reverse.find? (fun e => e.overlaps a n) with
  | none => .ok (c.d.readBytes a n)
  | some e => if e.covers a n then .ok ((e.data.drop (a - e.addr)).take n) else .error .wait

/-- The halves of an access of `n` bytes at `a`, one per line: address and length. -/
def halves : Nat → Nat → Nat → List (Nat × Nat)
  | 0, _, _ => []
  | fuel + 1, a, n => if n = 0 then [] else (a, lineRoom a n) :: halves fuel (a + lineRoom a n) (n - lineRoom a n)

/-- The bytes of checked halves, in ascending address. -/
def Ctx.loadHalves (c : Ctx) : List (Nat × Nat) → Run (List PByte)
  | [] => .ok []
  | (a, n) :: hs =>
    match c.loadHalf a n with
    | .error e => .error e
    | .ok x => match c.loadHalves hs with
      | .error e => .error e
      | .ok y => .ok (x ++ y)

/-- A checked load of `n` bytes at `a` (R317, R324): the bytes as read, and what the read leaves. -/
def Ctx.fetchBytes (c : Ctx) (a n : Nat) : Run (List PByte × Ctx) :=
  match c.loadHalves (halves (n / 64 + 2) a n) with
  | .error e => .error e
  | .ok bs => .ok (bs, c.withD (((c.d.captureReads c.g a n (fun l => c.d.readBytes (64 * l) 64)).noteRead a n).lruHit (clusterOf c.g) a n))

/-- A load of `n` bytes at `a`: the check of R309 in the Load column, then the read. -/
def Ctx.load (c : Ctx) (a n : Nat) : Run (List PByte × Ctx) :=
  match c.check .load a n with
  | .error e => .error e
  | .ok c => c.fetchBytes a n

/-- A byte of code as the thread's fetch finds it: in the line its fetch buffer holds, else in memory (R154, R157). -/
def Ctx.codeByte (c : Ctx) (a : Nat) : PByte :=
  match c.t.fetchLine with
  | some l => if a / 64 = l.line then l.bytes.getD (a % 64) (c.d.readByte a) else c.d.readByte a
  | none => c.d.readByte a
/-- `n` bytes of code at `a`. -/
def Ctx.codeBytes (c : Ctx) (a n : Nat) : List PByte := (List.range n).map (fun i => c.codeByte (a + i))

/-- Bytes split by line, each piece with its address. -/
def lineChunks : Nat → Nat → List PByte → List (Nat × List PByte)
  | 0, _, _ => []
  | fuel + 1, a, bs =>
    if bs.isEmpty then [] else
      (a, bs.take (lineRoom a bs.length)) :: lineChunks fuel (a + lineRoom a bs.length) (bs.drop (lineRoom a bs.length))

/-- The places of the store buffer that are taken: block writes of an entry take none (R286, R315). -/
def Thread.sbUsed (t : Thread) : Nat := (t.sb.filter (fun e => !e.block)).length

/-- A checked store enters the buffer (R315, R324): one entry a line; with too few free entries it does not issue. -/
def Ctx.buffer (c : Ctx) (a : Nat) (bs : List PByte) : Run Ctx :=
  let es := (lineChunks (bs.length / 64 + 2) a bs).map (fun x => StoreEntry.mk x.1 x.2 c.t.world false false)
  if 8 < c.t.sbUsed + es.length then .error .wait
  else .ok (c.withT { c.t with sb := c.t.sb ++ es })

/-- A store of bytes at `a`: the check of R309 in the Store column, then the buffer. -/
def Ctx.store (c : Ctx) (a : Nat) (bs : List PByte) : Run Ctx :=
  match c.check .store a bs.length with
  | .error e => .error e
  | .ok c => c.buffer a bs

/-- A write that entry or a lazy fill makes (R286): at once where the store buffer is empty, else behind its entries. DEDUCED, assumption 27. -/
def Ctx.blockWrite (c : Ctx) (a : Nat) (bs : List PByte) : Ctx :=
  if c.t.sb.isEmpty then c.withD ((c.d.lruHit (clusterOf c.g) a bs.length).clusterWrite (clusterOf c.g) a bs)
  else c.withT { c.t with sb := c.t.sb ++
    (lineChunks (bs.length / 64 + 2) a bs).map (fun x => StoreEntry.mk x.1 x.2 c.t.world true false) }

/-- The bytes of a register, least significant first, all with its mark. -/
def regBytes (n : Nat) (r : Reg) : List PByte := withMark r.poison (leBytes n r.val.toNat)

/-- A register made of loaded bytes, zero-extended. -/
def regOfBytes (bs : List PByte) : Reg := ⟨word (ofLe (vals bs)), anyPoison bs⟩

/-- 2^sz bytes: the size that a two-bit size field selects (R257). -/
def sizeOf2 (sz : BitVec 2) : Nat := 2 ^ sz.toNat

/-- Whether any byte of an access lies in control space or the bit-alias region (R322). -/
def inControl (a n : Nat) : Bool :=
  decide (a < Config.aliasBase + 0x200000 ∧ Config.ctlBase < a + n)

end Sys2Proof.Machine
end

