-- ==== Sys2Proof/Machine/Flags.lean ====
section
/-! DEFINITION. FL: how instructions write its flags, its poison mark, and the conditions that read it (R132, R165, R171, R225, R260). -/
namespace Sys2Proof.Machine

open Sys2Proof

/-- The four arithmetic flags. -/
structure Nzcv where
  n : Bool
  z : Bool
  c : Bool
  v : Bool
  deriving DecidableEq, Repr

/-- FL's flags N, Z, C and V (R132). -/
def Thread.nzcv (t : Thread) : Nzcv := ⟨bit t.fl.val 3, bit t.fl.val 2, bit t.fl.val 1, bit t.fl.val 0⟩

/-- A FL value with N, Z, C and V replaced; DI and DZ keep their values. -/
def packFlags (fl : Word) (f : Nzcv) : Word :=
  setFld fl 0 4 (f.n.toNat * 8 + f.z.toNat * 4 + f.c.toNat * 2 + f.v.toNat)

/-- All four flags written from unpoisoned sources, which clears the mark (R171). -/
def Ctx.setFlags (c : Ctx) (f : Nzcv) : Ctx :=
  c.withT { c.t with fl := ⟨packFlags c.t.fl.val f, false⟩ }

/-- FL poisoned (R171): unspecified N, Z, C and V, and the mark. -/
def Ctx.poisonFl (c : Ctx) : Ctx :=
  let x := c.d.draw
  (c.withD x.2).withT { c.t with fl := ⟨setFld c.t.fl.val 0 4 (fld x.1 0 4), true⟩ }

/-- DI or DZ written (R166, R189). -/
def Ctx.setDi (c : Ctx) (b : Bool) : Ctx := c.withT { c.t with fl := ⟨setBit c.t.fl.val 4 b, c.t.fl.poison⟩ }
def Ctx.setDz (c : Ctx) : Ctx := c.withT { c.t with fl := ⟨setBit c.t.fl.val 5 true, c.t.fl.poison⟩ }
/-- Z alone written (R258). -/
def Ctx.setZ (c : Ctx) (b : Bool) : Ctx := c.withT { c.t with fl := ⟨setBit c.t.fl.val 2 b, c.t.fl.poison⟩ }

/-- The result of an integer operation with its flags (R225): value, carry, overflow. -/
structure AluOut where
  val : Word
  c : Bool
  v : Bool
  deriving DecidableEq, Repr

/-- The flags of an integer result (R225). -/
def AluOut.flags (o : AluOut) : Nzcv := ⟨o.val.msb, decide (o.val = 0), o.c, o.v⟩

/-- R225: addition with carry in; carry out of bit 63 and signed overflow. -/
def addC (a b : Word) (cin : Bool) : AluOut :=
  let s := a.toNat + b.toNat + cin.toNat
  let i := a.toInt + b.toInt + cin.toNat
  ⟨word s, decide (2 ^ 64 ≤ s), decide (i < -(2 ^ 63) ∨ 2 ^ 63 ≤ i)⟩

/-- R225: subtraction; C is 1 when no borrow. `cin` is the carry of SBC: a − b − (1 − C). -/
def subC (a b : Word) (cin : Bool) : AluOut :=
  let k := 1 - cin.toNat
  let i := a.toInt - b.toInt - k
  ⟨a - b - word k, decide (b.toNat + k ≤ a.toNat), decide (i < -(2 ^ 63) ∨ 2 ^ 63 ≤ i)⟩

/-- R225: a logic result clears C and V. -/
def logic (v : Word) : AluOut := ⟨v, false, false⟩

/-- R223, R225: shifts; C is the last bit shifted out, 0 for an amount of 0. Kind 0 SHL, 1 SHR, 2 SAR. -/
def shiftOp (kind : Nat) (a : Word) (n : Nat) : AluOut :=
  if kind = 0 then ⟨a <<< n, decide (n ≠ 0) && a.getLsbD (64 - n), false⟩
  else if kind = 1 then ⟨a >>> n, decide (n ≠ 0) && a.getLsbD (n - 1), false⟩
  else ⟨a.sshiftRight n, decide (n ≠ 0) && a.getLsbD (n - 1), false⟩

/-- R225, R226: the low half of the product; V when the signed product does not fit 64 bits. -/
def mulLow (a b : Word) : AluOut :=
  let p := a.toInt * b.toInt
  ⟨a * b, false, decide (p < -(2 ^ 63) ∨ 2 ^ 63 ≤ p)⟩
/-- R226: the high half of the signed product. -/
def mulHigh (a b : Word) : AluOut := logic (BitVec.ofInt 64 ((a.toInt * b.toInt) / 2 ^ 64))
/-- R226: the high half of the unsigned product. -/
def mulHighU (a b : Word) : AluOut := logic (word (a.toNat * b.toNat / 2 ^ 64))

/-- The result of a division (R227): quotient, remainder, V. -/
structure DivOut where
  q : Word
  r : Word
  v : Bool
  deriving DecidableEq, Repr

/-- R227: signed division. -/
def divS (a b : Word) : DivOut :=
  if b = 0 then ⟨~~~0#64, a, true⟩
  else if a = 0x8000000000000000#64 ∧ b = ~~~0#64 then ⟨a, 0, true⟩
  else ⟨BitVec.ofInt 64 (a.toInt.tdiv b.toInt), BitVec.ofInt 64 (a.toInt.tmod b.toInt), false⟩
/-- R227: unsigned division. -/
def divUn (a b : Word) : DivOut :=
  if b = 0 then ⟨~~~0#64, a, true⟩ else ⟨a / b, a % b, false⟩

/-- R260: whether a condition holds; value 0 (NEVER) is stopped at decoding and 15 is ALW. -/
def condHolds (cond : Nat) (f : Nzcv) : Bool :=
  match cond with
  | 1 => f.z
  | 2 => !f.z
  | 3 => !f.c
  | 4 => f.c
  | 5 => f.c && !f.z
  | 6 => !f.c || f.z
  | 7 => f.n != f.v
  | 8 => f.n == f.v
  | 9 => !f.z && (f.n == f.v)
  | 10 => f.z || (f.n != f.v)
  | 11 => f.n
  | 12 => !f.n
  | 13 => f.v
  | 14 => !f.v
  | 15 => true
  | _ => false

end Sys2Proof.Machine
end

