-- ==== Sys2Proof/Machine/Ops.lean ====
section
/-! DEFINITION. How a thread's instruction issues, completes and stops (R125, R146, R152, R155), taking an exception or an
interrupt (R285, R293), and returning from one (R287). -/
namespace Sys2Proof.Machine

open Sys2Proof

/-- How an instruction that has not stopped ends. -/
inductive Out
  /-- It completed; its sequential successor is `n` bytes on. -/
  | seq (c : Ctx) (n : Nat)
  /-- It completed and transferred control; a branch is noted in the branch-target buffer (R155). -/
  | jump (c : Ctx) (target : Word) (branch : Bool)
  /-- A step of it is done and it has not completed: an interrupt may fall here. -/
  | stay (c : Ctx)
  deriving DecidableEq, Repr

/-- The pending mode change takes effect (R152). -/
def Thread.commitShadow (t : Thread) : Thread :=
  match t.shadow with
  | none => t
  | some s => { t with ts := (t.ts &&& ~~~0x7F#64) ||| (s.bits &&& 0x7F#64), shadow := none }

/-- One instruction of the mode-change shadow has completed (R152). -/
def Thread.tickShadow (t : Thread) : Thread :=
  match t.shadow with
  | none => t
  | some s => { t with shadow := some { s with left := s.left - 1 } }

/-- Whether the three instructions of the shadow are done, so that the change takes effect before any other (R152). -/
def Thread.commitDue (t : Thread) : Bool :=
  match t.shadow with
  | none => false
  | some s => s.left == 0

/-- One level of the loop-back of R146: the level's new LN, and whether control returns to its LA. -/
def loopStep (t : Thread) (i : Nat) (s : Word) : Option (Thread × Bool) :=
  let l := t.loopLevel i
  if l.ln ≠ 0 ∧ l.lb = s then some (t.setLoopLevel i { l with ln := l.ln - 1 }, l.ln - 1 ≠ 0) else none

/-- The loop-back of R146 over levels `n - 1` down to 0: the next PC, with bits [1:0] zero (R253), and the levels as they stand. -/
def loopBack : Nat → Thread → Word → Thread
  | 0, t, s => { t with pc := s }
  | n + 1, t, s =>
    match loopStep t n s with
    | some (t', true) => { t' with pc := (t.loopLevel n).la &&& ~~~3#64 }
    | some (t', false) => loopBack n t' s
    | none => loopBack n t s

/-- An instruction with sequential successor `s` completes (R146, R152): loop-back where TS.LE is 1; a resume state is used up (R140). -/
def Thread.retire (t : Thread) (s : Word) : Thread :=
  let t := if t.le then loopBack 3 t s else { t with pc := s }
  { t.tickShadow with mc := none }

/-- An instruction that transferred control to `target` completes. -/
def Thread.retireTo (t : Thread) (target : Word) : Thread := { t.tickShadow with pc := target, mc := none }

/-- R155: a taken branch at `a` to `target` in the branch-target buffer of a core. DESIGN CHOICE, assumption 30. -/
def Dev.btbNote (d : Dev) (core a target : Nat) : Dev :=
  let k := 128 * core + a / 4 % 128
  let set := SMap.get (fun _ => []) d.btb k
  let rest := set.filter (fun e => e.addr ≠ a)
  { d with btb := SMap.set (fun _ => []) d.btb k ((⟨a, target⟩ :: rest).take 4) }

/-- A write to a code-store line (R155): entries whose 16 target bytes overlap the line are invalid, in the cluster's cores. -/
def Dev.btbDrop (d : Dev) (cluster line : Nat) : Dev :=
  { d with btb := (d.btb.map (fun p =>
      if p.1 / 128 / 12 = cluster then
        (p.1, p.2.filter (fun e => decide (e.target + 16 ≤ 64 * line ∨ 64 * line + 64 ≤ e.target)))
      else p)).filter (fun p => !p.2.isEmpty) }

/-- The result of a context: its thread put back into its device. -/
def Ctx.commit (c : Ctx) : Dev := c.d.setThread c.g c.t

/-- An access refused because its key byte is poisoned is counted (R314, R419). -/
def Dev.notePoisonedKey (d : Dev) (why : Option Refused) : Dev :=
  if why = some .poisonedKey then (d.count rKeyStatus 16 16).setRb rKeyStatus 2 true else d

/-- A KEY exception is counted and the first recorded (R314). DEDUCED, assumption 24. -/
def Dev.noteKey (d : Dev) (g code : Nat) (faddr : Word) (why : Option Refused) : Dev :=
  let d := d.notePoisonedKey why
  let d := if why = some .key then d.count rKeyStatus 32 32 else d
  let d := if d.rb rKeyStatus 1 then d
    else d.setReg rKeyFirst (word (g * 2 ^ 52 + code % 4 * 2 ^ 50 + faddr.toNat % 2 ^ 48))
  d.setRb rKeyStatus 1 true

/-- A failure of entry (R293): cause, address of the failing access and why it was refused, the world whose table was read last, and the
device as the checks left it. -/
structure Lock where
  cause : Nat
  addr : Nat
  why : Option Refused
  world : Bool
  d : Dev
  deriving DecidableEq, Repr

/-- Why an entry is not made: it fails (R293), or its descriptor is partly in the thread's own store buffer and the read waits for the
drain (R317). -/
inductive NoEntry
  | lock (k : Lock)
  | wait
  deriving DecidableEq, Repr

/-- A descriptor (R280). -/
structure Descriptor where
  handler : Word
  stack : Word
  ctl : Word
  spare : Word
  deriving DecidableEq, Repr

def Descriptor.world (x : Descriptor) : Bool := bit x.ctl 1
/-- R281: VALID and LEVEL are 1 and every must-be-zero field is 0. -/
def Descriptor.valid (x : Descriptor) : Bool :=
  bit x.ctl 0 && bit x.ctl 2 && decide (fld x.handler 0 2 = 0) && decide (fld x.handler 48 16 = 0)
    && decide (fld x.stack 0 4 = 0) && decide (fld x.stack 48 16 = 0) && decide (fld x.ctl 16 48 = 0) && decide (x.spare = 0)

/-- R285 LoadDescriptor: 32 bytes, populated as a data operand is, in the Fetch column by world `w` at supervisor level
with key 0 (R310). -/
def loadDescriptor (c : Ctx) (w : Bool) (v : Nat) : Except NoEntry (Descriptor × Dev) :=
  let a := (c.t.worldRegs w).edtb.toNat + 32 * v
  let who : Who := ⟨clusterOf c.g, w, true, 0⟩
  let bad := match firstBad (fun x => if c.d.populated who .atomic x then none else some .address) a 32 with
    | some b => some b
    | none => firstBad (c.d.keyRule who .fetch) a 32
  match bad with
  | some (x, r) => .error (.lock ⟨1, x, some r, w, c.d⟩)
  | none =>
    let d := ((c.d.touch a 32 false).captureReads c.g a 32 (fun l => c.d.readBytes (64 * l) 64)).lruHit (clusterOf c.g) a 32
    match c.loadHalves [(a, 32)] with
    | .error _ => .error .wait
    | .ok bs =>
      if anyPoison bs then .error (.lock ⟨2, a, none, w, d⟩)
      else .ok (⟨word (ofLe (vals (bs.take 8))), word (ofLe (vals ((bs.drop 8).take 8))),
        word (ofLe (vals ((bs.drop 16).take 8))), word (ofLe (vals (bs.drop 24)))⟩, d)

/-- The descriptor an entry uses (R281): the world's own, or the one it is forwarded to; with the world and whether forwarded. -/
def chooseDescriptor (c : Ctx) (w : Bool) (v : Nat) : Except NoEntry (Descriptor × Bool × Bool × Dev) :=
  match loadDescriptor c w v with
  | .error e => .error e
  | .ok (x, d) =>
    if bit x.ctl 0 && x.world != w then
      match loadDescriptor (c.withD d) x.world v with
      | .error e => .error e
      | .ok (y, d) =>
        if y.world != x.world || !bit y.ctl 15 || !y.valid then .error (.lock ⟨3, 0, none, x.world, d⟩)
        else .ok (y, x.world, true, d)
    else if x.valid then .ok (x, w, false, d) else .error (.lock ⟨3, 0, none, w, d⟩)

/-- Supervisor register Sn of a world's bank (R129, R130). -/
def Thread.bank (t : Thread) (w : Bool) (n : Nat) : Reg := t.physGet (200 + (if w then 16 else 0) + n)
def Thread.setBank (t : Thread) (w : Bool) (n : Nat) (v : Reg) : Thread := t.physSet (200 + (if w then 16 else 0) + n) v

/-- A 64-bit word as 8 clean bytes. -/
def wordBytes (w : Word) : List PByte := clean (leBytes 8 w.toNat)

/-- Bytes 0-295 of the task-state block (R284). -/
def blockImage (t : Thread) (w : Bool) (vec : Nat) (intr : Option PendingIrq) (fwd : Bool) (detail faddr : Word) (area : Nat) :
    List PByte :=
  let info := vec + (if intr.isSome then 256 else 0) + (if fwd then 512 else 0)
    + (match intr with | some i => i.prio * 1024 | none => 0)
  let ts := (t.ts &&& 0xFFFF#64) ||| (if t.mc.isSome then 0x10000#64 else 0)
  let (mask, mca) : Word × Word := match t.mc with | some m => (m.mask.setWidth 64, m.addr) | none => (0, 0)
  wordBytes t.pc ++ regBytes 8 t.fl ++ wordBytes ts ++ wordBytes (word info) ++ wordBytes detail ++ wordBytes faddr
    ++ wordBytes (word (area % 2 ^ 48)) ++ regBytes 8 t.es ++ wordBytes mask ++ wordBytes mca
    ++ wordBytes t.lp0.la ++ wordBytes t.lp1.la ++ wordBytes t.lp2.la
    ++ wordBytes t.lp0.lb ++ wordBytes t.lp1.lb ++ wordBytes t.lp2.lb
    ++ wordBytes t.lp0.ln ++ wordBytes t.lp1.ln ++ wordBytes t.lp2.ln ++ wordBytes t.xceil
    ++ ((List.range 16).map (fun i => regBytes 8 (t.bank w i))).flatten ++ wordBytes t.cnt

/-- The new TS of an entry (R285). -/
def entryTs (x : Descriptor) (w : Bool) (intr : Option PendingIrq) : Word :=
  let ipl := match intr with | some i => Nat.max (fld x.ctl 8 4) i.prio | none => fld x.ctl 8 4
  word (1 + (if w then 2 else 0) + fld x.ctl 4 4 * 4 + fld x.ctl 3 1 * 64 + ipl * 256
    + fld x.ctl 13 1 * 4096 + fld x.ctl 14 1 * 8192 + 16384 + 32768)

/-- R285: the entry, or why it fails. Every check is made before any register changes. The block is checked with key 0, as R285 has it. DEDUCED,
assumption 128. -/
def tryEnter (c : Ctx) (vec : Nat) (intr : Option PendingIrq) (detail faddr : Word) : Except NoEntry Ctx :=
  let t := c.t.commitShadow
  let c := c.withT t
  let w0 := t.world
  match chooseDescriptor c (match intr with | some i => i.world | none => w0) vec with
  | .error e => .error e
  | .ok (x, w, fwd, d) =>
    let own := t.sup && w0 == w
    if own && (t.bank w 15).poison then .error (.lock ⟨4, 0, none, w, d⟩)
    else
      let base : Word := if own then (t.bank w 15).val &&& ~~~0xF#64 else x.stack
      let area := (base - 288).toNat
      match d.checkAccess ⟨clusterOf c.g, w, true, fld x.ctl 4 4⟩ .store area 288 with
      | some (a, r) => .error (.lock ⟨4, a, some r, w, d⟩)
      | none =>
        let d := d.touch area 288 true
        let top := (t.worldRegs w).tsbr.toNat
        if top < 512 then .error (.lock ⟨5, 0, none, w, d⟩)
        else
          let b := top - 512
          match d.checkAccess ⟨clusterOf c.g, w, true, 0⟩ .store b 296 with
          | some (a, r) => .error (.lock ⟨5, a, some r, w, d⟩)
          | none =>
            let c := (c.withD (d.touch b 296 true)).blockWrite b (blockImage t w vec intr fwd detail faddr area)
            let t := c.t.setWorldRegs w { c.t.worldRegs w with tsbr := word b }
            let t := { t with
              xceil := word (Nat.max (fld x.ctl 12 1) t.sup.toNat + (if w0 then 2 else 0) + (if fwd then 4 else 0)
                + (if intr.isSome then 8 else 0) + vec * 256)
              lp0 := { t.lp0 with ln := 0 }, lp1 := { t.lp1 with ln := 0 }, lp2 := { t.lp2 with ln := 0 }
              es := .zero
              ts := entryTs x w intr
              pc := x.handler
              mc := none
              run := .running
              lazyOuter := (b, t.lazySave) :: t.lazyOuter
              lazySave := some ⟨area, b⟩
              irqs := match intr with | some i => t.irqs.filter (fun j => j ≠ i) | none => t.irqs }
            .ok (c.withT (t.setBank w 15 ⟨word area, false⟩))

/-- A fault during entry locks the thread up (R293, R294); an access refused for a poisoned key byte is counted (R314). DEDUCED,
assumption 26. -/
def lockup (c : Ctx) (vec : Nat) (intr : Option PendingIrq) (k : Lock) : Ctx :=
  let o := rClLock (clusterOf c.g)
  let d := if bit (k.d.reg o) 31 then k.d
    else (k.d.setReg o (word (fld (k.d.reg o) 48 16 * 2 ^ 48 + vec * 2 ^ 32 + 2 ^ 31 + k.cause * 2 ^ 28
      + k.world.toNat * 2 ^ 27 + intr.isSome.toNat * 2 ^ 26 + localOf c.g))).setReg (rClLockaddr (clusterOf c.g))
        (word (if k.cause = 3 then 0 else k.addr % 2 ^ 48))
  let d := ((d.notePoisonedKey k.why).count o 48 16).trigger 2 (clusterOf c.g) (localOf c.g) 0
  (c.withD d).withT { c.t with run := .locked }

/-- Entry to a handler (R285), or the lockup that a failed entry is (R293); none while it waits (R317). -/
def enter (c : Ctx) (vec : Nat) (intr : Option PendingIrq) (detail faddr : Word) : Option Ctx :=
  match tryEnter c vec intr detail faddr with
  | .ok c' => some c'
  | .error (.lock k) => some (lockup c vec intr k)
  | .error .wait => none

/-- Whether an entry may begin (R246, R286, R336): every floating operation has completed and every POST result is written. -/
def Thread.entryReady (t : Thread) : Bool := t.fpOut.isEmpty && t.posts.isEmpty

/-- A pending FLOATING exception (R246): its DETAIL, and the thread with PEND and TRAPPED cleared. -/
def Thread.floatingPend (t : Thread) : Bool := bit t.fps 19
def Thread.takeFloating (t : Thread) : Word × Thread :=
  (word (fld t.fps 20 5), { t with fps := setFld t.fps 19 6 0 })

/-- A thread takes an exception (R246, R285): a pending FLOATING is delivered in its place. -/
def takeExc (c : Ctx) (e : Exc) : Option Ctx :=
  if c.t.floatingPend then enter (c.withT c.t.takeFloating.2) 9 none c.t.takeFloating.1 0
  else
    let d := if e.vec = 3 then c.d.noteKey c.g (e.detail.toNat) e.faddr e.why else c.d
    let d := if e.vec = 13 then d.trigger 1 (clusterOf c.g) (localOf c.g) 0 else d
    enter (c.withD d) e.vec none e.detail e.faddr

/-- Whether the core of a thread runs: its cluster released, with power, not held for a checkpoint or a freeze, the
core's clock not gated, and no restart, reset or hold of the device that stops it (R410, R481, R497, R531, R532, R534). -/
def Dev.coreRuns (d : Dev) (g : Nat) : Bool :=
  let x := d.cluster (clusterOf g)
  x.released && !x.napping && !x.held && !d.box.wordHeld && !d.gated.contains (coreOf g) && !d.stopping g

/-- R125, R336: no POST of the thread awaits a result for FL, where the instruction reads or writes it, or for a register it
names. -/
def Thread.noHazard (t : Thread) (regs : List GReg) (fl : Bool) : Bool :=
  t.posts.all (fun p => !fl && regs.all (fun r => decide (t.phys r ≠ p.dest ∨ p.dest = 0)))

/-- Whether interrupt `a` is taken before interrupt `b` (R290). -/
def PendingIrq.before (a b : PendingIrq) : Bool :=
  decide (b.prio < a.prio) || (decide (a.prio = b.prio) &&
    (decide (a.vector < b.vector) || (decide (a.vector = b.vector) && !a.world && b.world)))

/-- The interrupt that a thread takes at this boundary (R290). -/
def Thread.eligibleIrq (t : Thread) : Option PendingIrq :=
  if t.ie then
    (t.irqs.filter (fun i => decide (t.ipl < i.prio))).foldl (fun best i => match best with
      | none => some i
      | some b => if i.before b then some i else some b) none
  else none

/-- Whether the thread's next instruction can issue (R124, R125, R152): an interrupt that the thread can take comes first (R271, R295). -/
def Dev.issuable (d : Dev) (g : Nat) (regs : List GReg) (fl : Bool) : Bool :=
  let t := d.thread g
  d.coreRuns g && decide (t.run = .running) && !t.commitDue && !t.releasing && t.eligibleIrq.isNone && t.noHazard regs fl

/-- The context of a thread. -/
def Dev.ctx (d : Dev) (g : Nat) : Ctx := ⟨d, g, d.thread g⟩

/-- The context of a thread's instruction: a resume state that RETX restored counts only for LDM and STM (R140). -/
def Dev.freshCtx (d : Dev) (g : Nat) : Ctx := ⟨d, g, { d.thread g with mc := none }⟩

/-- What becomes of an instruction that ended so. -/
def finish (d : Dev) (r : Run Out) : Dev :=
  match r with
  | .error .wait => d
  | .error (.exc c e) => if c.t.entryReady then ((takeExc c e).map Ctx.commit).getD d else d
  | .ok (.seq c n) => (c.withT (c.t.retire (c.t.pc + word n))).commit
  | .ok (.jump c target branch) =>
    let d := if branch then c.d.btbNote (coreOf c.g) c.t.pc.toNat target.toNat else c.d
    ((c.withD d).withT (c.t.retireTo target)).commit
  | .ok (.stay c) => c.commit

/-- An instruction of thread `g`, as a change of the device: nothing happens while it cannot issue (R125). DESIGN CHOICE, assumptions 7, 106. -/
def Dev.instr (d : Dev) (g : Nat) (regs : List GReg) (fl : Bool) (body : Ctx → Run Out) : Dev :=
  if d.issuable g regs fl then finish d (body (d.freshCtx g)) else d

/-- A change of the device as the effect of a command. -/
def onDev (s : State) (f : Dev → Dev) : Host.Outcome State Fault Refusal := .next { s with dev := f s.dev }

/-- A command about a unit the device has, or the fault of one about a unit it does not have. DESIGN CHOICE, assumption 9. -/
def onUnit (ok : Bool) (s : State) (f : Dev → Dev) : Host.Outcome State Fault Refusal :=
  if ok then onDev s f else .fault .noSuchUnit

/-- A command about an event of thread `g`. -/
def threadEvent (g : Nat) (s : State) (f : Nat → Dev → Dev) : Host.Outcome State Fault Refusal :=
  onUnit (decide (g < Config.threads)) s (fun d => d.onThread g f)

/-- The command of an instruction of thread `g`: `regs` are the general registers it reads or writes, `fl` says whether it
reads or writes FL. -/
def runThread (g : Nat) (s : State) (regs : List GReg) (fl : Bool) (body : Ctx → Run Out) :
    Host.Outcome State Fault Refusal :=
  threadEvent g s (fun g d => d.instr g regs fl body)

/-- An instruction that completes with its sequential successor 4 bytes on. -/
def seq4 (c : Ctx) : Run Out := .ok (.seq c 4)
/-- A 64-bit instruction that completes. -/
def seq8 (c : Ctx) : Run Out := .ok (.seq c 8)

/-- The digits of an accumulator as R143 lays them out: 64 digits, two per byte, most significant first. -/
def digitBytes (v : Nat) : Nat → List Byte
  | 0 => []
  | n + 1 => digitBytes (v / 100) n ++ [BitVec.ofNat 8 (v / 10 % 10 * 16 + v % 10)]

/-- The filled lazy area (R143). -/
def lazyImage (t : Thread) : List PByte :=
  ((List.range 8).map (fun k => let a := t.acc (BitVec.ofNat 3 k)
    withMark a.poison (digitBytes a.val.natAbs 32))).flatten
  ++ (List.range 8).map (fun k => let a := t.acc (BitVec.ofNat 3 k)
    ⟨if a.val < 0 then 0x0D#8 else 0x0C#8, a.poison⟩)
  ++ clean (List.replicate 24 0#8)

/-- Where the pending lazy save goes (R141, R142): the area reserved at the entry; for a DL that no entry of the model's record set, the
area that the newest task-state block of the world in force names. DESIGN CHOICE, assumption 110. -/
def Ctx.lazyPlace (c : Ctx) : LazyArea :=
  match c.t.lazySave with
  | some x => x
  | none =>
    let b := (c.t.worldRegs c.t.world).tsbr.toNat
    ⟨ofLe (vals (c.d.readBytes (b + 48) 6)), b⟩

/-- The lazy fill before the first use of an accumulator after entry (R142): the area, then FILLED, and TS.DL cleared. -/
def lazyFill (c : Ctx) : Ctx :=
  if c.t.dl then
    let x := c.lazyPlace
    let c := c.blockWrite x.area (lazyImage c.t)
    let c := c.blockWrite (x.block + 48) (wordBytes (word (x.area % 2 ^ 48 + 2 ^ 63)))
    c.withT { c.t with ts := setBit c.t.ts 14 false }
  else c

/-- The number that packed digit bytes spell; none if a nibble is no digit. -/
def digitsOf : List Byte → Option Nat
  | [] => some 0
  | b :: bs =>
    if b.toNat / 16 ≤ 9 ∧ b.toNat % 16 ≤ 9 then
      (digitsOf bs).map (fun v => (b.toNat / 16 * 10 + b.toNat % 16) * 100 ^ bs.length + v)
    else none

/-- Accumulator `k` as RETX reloads it from the area (R144). -/
def reloadAcc (d : Dev) (area k : Nat) : DAcc :=
  let ds := d.readBytes (area + 32 * k) 32
  let sg := d.readByte (area + 256 + k)
  match digitsOf (vals ds) with
  | some v =>
    if anyPoison ds || sg.poison || (sg.val != 0x0C#8 && sg.val != 0x0D#8) then ⟨0, true⟩
    else ⟨if sg.val = 0x0D#8 then -(v : Int) else v, false⟩
  | none => ⟨0, true⟩

/-- All eight accumulators reloaded (R144). -/
def reloadAll (c : Ctx) (area : Nat) : Ctx :=
  (c.withD (c.d.lruHit (clusterOf c.g) area 264)).withT
    ((List.range 8).foldl (fun t k => t.setAcc (BitVec.ofNat 3 k) (reloadAcc c.d area k)) c.t)

/-- Word `i` (8 bytes) of a block image, and whether it is poisoned. -/
def wordOf (bs : List PByte) (off : Nat) : Reg := regOfBytes ((bs.drop off).take 8)

/-- RETX (R287): every check before anything is restored. -/
def returnFrom (c : Ctx) : Run Out :=
  let c := c.withT c.t.commitShadow
  if !c.t.sup then raise c 2 4
  else
    let w := c.t.world
    let b := (c.t.worldRegs w).tsbr.toNat
    if !c.t.sb.isEmpty || !c.t.posts.isEmpty then .error .wait
    else match c.d.checkAccess ⟨clusterOf c.g, w, true, 0⟩ .load b 296 with
      | some (x, r) => refusal c 1 x r
      | none =>
        let c := c.withD (((c.d.touch b 296 false).noteRead b 296).lruHit (clusterOf c.g) b 296)
        let bs := c.d.readBytes b 296
        let checked := [0, 16, 48, 64, 72, 80, 88, 96, 104, 112, 120, 128, 136, 144, 152, 288]
        match checked.find? (fun o => (wordOf bs o).poison) with
        | some o => machineCheck c 5 (b + o)
        | none =>
          let ts := (wordOf bs 16).val
          if bit ts 0 && !bit c.t.xceil 0 then raise c 12 1
          else if bit ts 1 != bit c.t.xceil 1 then raise c 12 2
          else
            let lazyw := (wordOf bs 48).val
            let c := if bit lazyw 63 then reloadAll c (fld lazyw 0 48) else c
            let t := (List.range 16).foldl (fun t i => t.setBank w i (wordOf bs (160 + 8 * i))) c.t
            let t := t.setWorldRegs w { t.worldRegs w with tsbr := word ((b + 512) % 2 ^ 48) }
            let fl := wordOf bs 8
            let es := wordOf bs 56
            let t := { t with
              fl := ⟨fl.val &&& 0x3F#64, fl.poison⟩
              es := ⟨es.val &&& 0xFFFF#64, es.poison⟩
              cnt := (wordOf bs 288).val
              lp0 := ⟨(wordOf bs 80).val, (wordOf bs 104).val, (wordOf bs 128).val, t.lp0.head⟩
              lp1 := ⟨(wordOf bs 88).val, (wordOf bs 112).val, (wordOf bs 136).val, t.lp1.head⟩
              lp2 := ⟨(wordOf bs 96).val, (wordOf bs 120).val, (wordOf bs 144).val, t.lp2.head⟩
              xceil := (wordOf bs 152).val &&& 0xFF0F#64
              ts := ts &&& 0xFF7F#64
              pc := (wordOf bs 0).val &&& ~~~3#64
              mc := if bit ts 16 then some ⟨(wordOf bs 64).val.setWidth 32, (wordOf bs 72).val⟩ else none
              lazySave := (t.lazyOuter.find? (fun x => x.1 == b)).elim none (fun x => x.2)
              lazyOuter := t.lazyOuter.filter (fun x => x.1 ≠ b) }
            .ok (.stay (c.withT t))

end Sys2Proof.Machine
end

