-- ==== Sys2Proof/Machine/Special.lean ====
section
/-! DEFINITION. Special registers (R131-R133), hardware loops (R145), system calls and gates (R276-R278), the return from an entry
(R287), BREAK, hints and FBAR (R246, R261, R263). -/
namespace Sys2Proof.Machine

open Sys2Proof

/-- How a mode may reach a special register (R131). -/
inductive SprAccess
  | undefined | privileged | readOnly | readWrite
  deriving DecidableEq, Repr

/-- The access columns of R131. -/
def sprAccess (n : Nat) (sup : Bool) : SprAccess :=
  if 0x1A ≤ n then .undefined
  else if n = 0x00 ∨ n = 0x19 then .readOnly
  else if n = 0x02 ∨ n = 0x06 ∨ n = 0x07 ∨ n = 0x12 then if sup then .readWrite else .readOnly
  else if n = 0x18 then if sup then .readOnly else .privileged
  else if n = 0x03 ∨ (0x13 ≤ n ∧ n ≤ 0x17) then if sup then .readWrite else .privileged
  else .readWrite

/-- TS as MFS reads it: a pending change reads as written (R152). -/
def Thread.tsRead (t : Thread) : Word :=
  match t.shadow with
  | none => t.ts
  | some s => (t.ts &&& ~~~0x7F#64) ||| (s.bits &&& 0x7F#64)

/-- A special register's value (R131). -/
def sprGet (t : Thread) (g n : Nat) : Reg :=
  match n with
  | 0x00 => ⟨t.pc, false⟩
  | 0x01 => t.fl
  | 0x02 => ⟨t.tsRead, false⟩
  | 0x03 => ⟨(t.worldRegs t.world).tsbr, false⟩
  | 0x04 => ⟨t.cnt, false⟩
  | 0x05 => t.es
  | 0x06 => ⟨word t.wsel, false⟩
  | 0x07 => ⟨word t.wd, false⟩
  | 0x08 => ⟨t.lp0.la, false⟩
  | 0x09 => ⟨t.lp1.la, false⟩
  | 0x0A => ⟨t.lp2.la, false⟩
  | 0x0B => ⟨t.lp0.lb, false⟩
  | 0x0C => ⟨t.lp1.lb, false⟩
  | 0x0D => ⟨t.lp2.lb, false⟩
  | 0x0E => ⟨t.lp0.ln, false⟩
  | 0x0F => ⟨t.lp1.ln, false⟩
  | 0x10 => ⟨t.lp2.ln, false⟩
  | 0x11 => ⟨t.fps, false⟩
  | 0x12 => ⟨t.fpepc, false⟩
  | 0x13 => ⟨t.sepc, false⟩
  | 0x14 => t.sefl
  | 0x15 => ⟨t.sets, false⟩
  | 0x16 => ⟨(t.worldRegs t.world).sentry, false⟩
  | 0x17 => ⟨(t.worldRegs t.world).edtb, false⟩
  | 0x18 => ⟨t.xceil, false⟩
  | 0x19 => ⟨word g, false⟩
  | _ => .zero

/-- MTS to TS (R133, R152, R153): IPL, DOM, DDM and LE at once; IE, KEY, WORLD and LEVEL after three more instructions, or merged
into the change that is pending. -/
def writeTs (t : Thread) (v : Word) : Thread :=
  let now := (t.ts &&& ~~~0xBF00#64) ||| (v &&& 0xBF00#64)
  match t.shadow with
  | some s => { t with ts := now, shadow := some { s with bits := v &&& 0x7F#64 } }
  | none =>
    if v &&& 0x7F#64 = t.ts &&& 0x7F#64 then { t with ts := now }
    else { t with ts := now, shadow := some ⟨v &&& 0x7F#64, 3⟩ }

/-- MTS to FPS (R231): RM 5-7 leaves RM; PEND can only be cleared. -/
def writeFps (old v : Word) : Word :=
  let rm := if fld v 16 3 ≤ 4 then fld v 16 3 else fld old 16 3
  setFld (setBit (v &&& 0x1FF1F1F#64) 19 (bit old 19 && bit v 19)) 16 3 rm

/-- The value written to a special register; SEPC, SEFL and SETS also write SETS.WORLD with the current world (R278). DEDUCED, assumption 23. -/
def sprSet (t : Thread) (n : Nat) (r : Reg) : Thread :=
  let v := r.val
  let w := t.world
  let wr := t.worldRegs w
  match n with
  | 0x01 => { t with fl := ⟨v &&& 0x3F#64, r.poison⟩ }
  | 0x02 => writeTs t v
  | 0x03 => t.setWorldRegs w { wr with tsbr := v &&& 0xFFFFFFFFFE00#64 }
  | 0x04 => { t with cnt := v }
  | 0x05 => { t with es := ⟨v &&& 0xFFFF#64, r.poison⟩ }
  | 0x06 => if fld v 0 4 ≤ 11 then { t with wsel := fld v 0 4 } else t
  | 0x07 => if fld v 0 4 ≤ 11 then { t with wd := fld v 0 4 } else t
  | 0x08 => { t with lp0 := { t.lp0 with la := v } }
  | 0x09 => { t with lp1 := { t.lp1 with la := v } }
  | 0x0A => { t with lp2 := { t.lp2 with la := v } }
  | 0x0B => { t with lp0 := { t.lp0 with lb := v } }
  | 0x0C => { t with lp1 := { t.lp1 with lb := v } }
  | 0x0D => { t with lp2 := { t.lp2 with lb := v } }
  | 0x0E => { t with lp0 := { t.lp0 with ln := v } }
  | 0x0F => { t with lp1 := { t.lp1 with ln := v } }
  | 0x10 => { t with lp2 := { t.lp2 with ln := v } }
  | 0x11 => { t with fps := writeFps t.fps v }
  | 0x12 => { t with fpepc := v &&& 0xFFFFFFFFFFFF#64 }
  | 0x13 => { t with sepc := v &&& 0xFFFFFFFFFFFF#64, sets := setBit t.sets 1 w }
  | 0x14 => { t with sefl := ⟨v &&& 0x3F#64, r.poison⟩, sets := setBit t.sets 1 w }
  | 0x15 => { t with sets := setBit (v &&& 0x1FF7F#64) 1 w }
  | 0x16 => t.setWorldRegs w { wr with sentry := v &&& 0x7FFFFFFFFFFFFC#64 }
  | 0x17 => t.setWorldRegs w { wr with edtb := v &&& 0xFFFFFFFFE000#64 }
  | _ => t

/-- A delivery point of R246 that is an instruction: it waits for every floating operation, then delivers a pending FLOATING. -/
def deliverFloating (c : Ctx) : Run Unit :=
  if !c.t.fpOut.isEmpty then .error .wait
  else if c.t.floatingPend then raise c 9 0
  else .ok ()

/-- MFS (R131, R132, R246). -/
def execMfs (g : Nat) (ra : GReg) (spr : BitVec 6) (s : State) : Host.Outcome State Fault Refusal :=
  runThread g s [ra] (decide (spr = 1)) (fun c =>
    match sprAccess spr.toNat c.t.sup with
    | .undefined => illegal c 2 0x29
    | .privileged => raise c 2 1
    | _ =>
      match (if spr = 0x11 then deliverFloating c else .ok ()) with
      | .error e => .error e
      | .ok () => seq4 (c.setR ra (sprGet c.t g spr.toNat)))

/-- MTS (R131-R133, R278). A write to TS acts from the next instruction on: the loop-back after this one is under the LE before it
(R133, R152). -/
def execMts (g : Nat) (ra : GReg) (spr : BitVec 6) (s : State) : Host.Outcome State Fault Refusal :=
  runThread g s [ra] (decide (spr = 1)) (fun c =>
    match sprAccess spr.toNat c.t.sup with
    | .undefined | .readOnly => illegal c 2 0x29
    | .privileged => raise c 2 1
    | .readWrite =>
      if (c.r ra).poison ∧ spr ≠ 1 ∧ spr ≠ 5 ∧ spr ≠ 0x14 then machineCheck c 6
      else if spr = 2 then .ok (.stay (c.withT (writeTs (c.t.retire (c.t.pc + 4)) (c.r ra).val)))
      else seq4 (c.withT (sprSet c.t spr.toNat (c.r ra))))

/-- LOOP (R145): the level keeps the first 16 bytes at its LA (R146). A skipped body is a transfer of control past it. DEDUCED,
assumptions 22, 111. -/
def execLoop (g : Nat) (rc : GReg) (len : BitVec 16) (s : State) : Host.Outcome State Fault Refusal :=
  runThread g s [rc] false (fun c =>
    let n := c.r rc
    let lb := c.t.pc + word (8 + 4 * len.toNat)
    if n.poison then machineCheck c 2
    else match [0, 1, 2].find? (fun i => (c.t.loopLevel i).ln = 0) with
      | none => raise c 11 0
      | some i =>
        if n.val = 0 then .ok (.jump c lb false)
        else seq4 (c.withT (c.t.setLoopLevel i ⟨c.t.pc + 4, lb, n.val, vals (c.codeBytes (c.t.pc + 4).toNat 16)⟩)))

/-- SCALL (R276): a system call, or a gate call where the caller's SENTRY has GATE set. -/
def execScall (g : Nat) (s : State) : Host.Outcome State Fault Refusal :=
  runThread g s [] true (fun c =>
    if !c.t.posts.isEmpty then .error .wait
    else
      let t := c.t.commitShadow
      let own := (t.worldRegs t.world).sentry
      let tw := if bit own 53 then !t.world else t.world
      let e := (t.worldRegs tw).sentry
      if t.sup then raise (c.withT t) 2 2
      else if bit own 53 && !bit e 54 then raise (c.withT t) 2 3
      else .ok (.stay (c.withT { t with
        sepc := (t.pc + 4) &&& 0xFFFFFFFFFFFF#64
        sefl := t.fl
        sets := t.ts
        ts := setFld (setBit t.ts 15 false) 0 7 (1 + tw.toNat * 2 + fld e 48 4 * 4 + fld e 52 1 * 64)
        pc := e &&& 0xFFFFFFFFFFFC#64
        mc := none })))

/-- SRET (R277). -/
def execSret (g : Nat) (s : State) : Host.Outcome State Fault Refusal :=
  runThread g s [] true (fun c =>
    if !c.t.posts.isEmpty then .error .wait
    else
      let t := c.t.commitShadow
      if !t.sup then raise (c.withT t) 2 4
      else .ok (.stay (c.withT { t with
        pc := regTarget' t.sepc, fl := t.sefl, ts := t.sets &&& 0xFF7F#64, mc := none })))
where
  /-- A restored PC has bits [1:0] zero (R253). -/
  regTarget' (w : Word) : Word := w &&& ~~~3#64

/-- RETX (R287). -/
def execRetx (g : Nat) (s : State) : Host.Outcome State Fault Refusal :=
  runThread g s [] true returnFrom

/-- BREAK (R261): BREAK (vector 14) with code16 as DETAIL. -/
def execBrk (g : Nat) (code : BitVec 16) (s : State) : Host.Outcome State Fault Refusal :=
  runThread g s [] false (fun c => raise c 14 code.toNat)

/-- HINT (R263): a no-operation, whatever its low bits hold. -/
def execHint (g : Nat) (_bits : BitVec 26) (s : State) : Host.Outcome State Fault Refusal :=
  runThread g s [] false seq4

/-- FBAR (R246): waits for every floating operation of the thread and delivers a pending FLOATING. -/
def execFbar (g : Nat) (s : State) : Host.Outcome State Fault Refusal :=
  runThread g s [] false (fun c =>
    match deliverFloating c with
    | .error e => .error e
    | .ok () => seq4 c)

/-- TRIG (R505): trigger 4 of the Train Register with code16 as tag; a no-operation when it does not act. -/
def execTrig (g : Nat) (code : BitVec 16) (s : State) : Host.Outcome State Fault Refusal :=
  runThread g s [] false (fun c => seq4 (c.withD (c.d.trigger 4 (clusterOf c.g) (localOf c.g) code.toNat)))

end Sys2Proof.Machine
end

