-- ==== Sys2Proof/Machine/Encoding.lean ====
section
/-! DEFINITION. Strict decoding of instruction words (chapter 8): the ILLEGAL code of a word, the width of an instruction, the REP pair,
and the exception that an instruction's fetch and decoding raise (R154, R264-R268, R304). -/
namespace Sys2Proof.Machine

open Sys2Proof

/-- Bits `[lo + n - 1 : lo]` of an instruction word. -/
def ifld (w : BitVec 32) (lo n : Nat) : Nat := w.toNat / 2 ^ lo % 2 ^ n

/-- The major opcode of a word (R253). -/
def major (w : BitVec 32) : Nat := ifld w 26 6

/-- The defined majors (R256). -/
def majorDefined (m : Nat) : Bool :=
  [0x01, 0x02, 0x03, 0x04, 0x05, 0x06, 0x07, 0x08, 0x10, 0x12, 0x20, 0x21, 0x22, 0x28, 0x29, 0x2A, 0x2B, 0x2C,
   0x30, 0x31, 0x32, 0x33, 0x34, 0x36, 0x38, 0x3A, 0x3B, 0x3C, 0x3E].contains m

/-- The instructions of two words (R254). -/
def isLong (m : Nat) : Bool := decide (m = 0x30 ∨ m = 0x33)

/-- R269: whether the minor of a word is defined, where its major has one. -/
def minorDefined (w : BitVec 32) : Bool :=
  let m := major w
  if m = 0x01 then decide (ifld w 0 6 ≤ 0x10 ∧ ifld w 0 6 ≠ 0x0B)
  else if m = 0x12 then decide (ifld w 0 4 ≤ 4)
  else if m = 0x29 then decide (ifld w 0 6 ≤ 5)
  else if m = 0x2C then decide (ifld w 0 6 ≤ 6)
  else if m = 0x30 then decide (ifld w 0 4 ≤ 7)
  else if m = 0x31 then decide (ifld w 0 6 ≤ 8)
  else if m = 0x33 then decide (ifld w 0 6 ≤ 6)
  else if m = 0x34 then decide (ifld w 0 6 ≤ 2)
  else if m = 0x3A then decide (ifld w 0 6 ≤ 0x0B)
  else if m = 0x3B then decide (ifld w 0 6 ≤ 4)
  else true

/-- Registers that must be other than X0 and all different (R196). -/
def distinctPointers (rs : List Nat) : Bool := decide (0 ∉ rs) && decide (rs.Nodup)

/-- R195, R196: the register and byte fields of a whole-string form. Operands: minor, rd, rs, rn, rt, and of word 1 F, NE, rk, BYTE. -/
def stringFieldsOk (minor rd rs rn rt : Nat) (f ne : Bool) (rk byte : Nat) : Bool :=
  match minor with
  | 0 => decide (rt = 0 ∧ rk = 0) && !ne && (if f then decide (rs = 0) && distinctPointers [rd, rn]
      else decide (byte = 0) && distinctPointers [rd, rs, rn])
  | 1 => decide (rk = 0 ∧ byte = 0) && !f && !ne && distinctPointers [rd, rs, rn, rt]
  | 2 => decide (rt = 0 ∧ rk = 0 ∧ byte = 0) && !f && !ne && distinctPointers [rd, rs, rn]
  | 3 => decide (rd = 0 ∧ rt = 0 ∧ rk = 0) && !f && distinctPointers [rs, rn]
  | 4 => decide (rk = 0 ∧ byte = 0) && !f && !ne && distinctPointers [rs, rn, rt] && !([rs, rn, rt].contains rd)
  | 5 => decide (rk = 0) && !f && !ne && distinctPointers [rd, rs, rn, rt]
  | _ => !f && !ne && distinctPointers [rd, rs, rn, rt, rk]

/-- The word-0 fields of a whole-string form where word 1 is not looked at (R266): some word 1 goes with them. -/
def stringHeadOk (minor rd rs rn rt : Nat) : Bool :=
  stringFieldsOk minor rd rs rn rt false false (if minor = 6 then 32 else 0) 0
    || (decide (minor = 0) && stringFieldsOk 0 rd rs rn rt true false 0 0)

/-- R230, R233: the fields of a floating arithmetic word. Operands: minor, fd, fa, fb, fc, fmt. -/
def floatFieldsOk (minor fd fa fb fc fmt : Nat) : Bool :=
  let even (r : Nat) := decide (fmt ≠ 3 ∨ r % 2 = 0)
  match minor with
  | 0 | 1 | 2 | 3 => decide (fc = 0) && even fd && even fa && even fb
  | 4 | 7 | 8 | 9 => decide (fb = 0 ∧ fc = 0) && even fd && even fa
  | 5 => even fd && even fa && even fb && even fc
  | 6 => decide (fd = 0 ∧ fc = 0) && even fa && even fb
  | 10 => decide (fc = 0 ∧ 2 ≤ fmt) && even fd && even fa && even fb
  | _ => decide (fb = 0 ∧ fc % 4 = 0 ∧ fc / 4 ≠ fmt) && even fa && decide (fc / 4 ≠ 3 ∨ fd % 2 = 0)

/-- R265 and the encoding tables: every reserved field of the word is zero and every field value allowed. `sup` is the mode in
force, which decides the registers MTS may write (R132). -/
def fieldsOk (sup : Bool) (w : BitVec 32) : Bool :=
  let m := major w
  if m = 0x01 then
    let minor := ifld w 0 6
    if minor = 0x0F ∨ minor = 0x10 then decide (¬ (ifld w 21 5 = ifld w 6 5 ∧ ifld w 21 5 ≠ 0)) else decide (ifld w 6 5 = 0)
  else if m = 0x07 then decide (ifld w 18 3 = 0)
  else if m = 0x08 then decide (ifld w 14 2 ≠ 3 ∧ ifld w 6 8 = 0)
  else if m = 0x10 then decide (ifld w 12 1 = 0 ∨ (ifld w 13 1 = 0 ∧ ifld w 14 2 ≠ 3))
  else if m = 0x12 then decide (2 ≤ ifld w 4 2) && (decide (ifld w 0 4 = 2) || decide (ifld w 6 5 = 0))
  else if m = 0x22 then decide (ifld w 0 21 = 0)
  else if m = 0x29 then
    let minor := ifld w 0 6
    let spr := ifld w 6 6
    decide (ifld w 12 4 = 0) &&
    (if minor = 0 then decide (ifld w 6 20 = 0)
     else if minor = 1 then decide (ifld w 6 15 = 0)
     else if minor = 2 then decide (ifld w 16 5 = 0 ∧ sprAccess spr sup ≠ .undefined)
     else if minor = 3 then decide (ifld w 16 5 = 0 ∧ sprAccess spr sup ≠ .undefined ∧ sprAccess spr sup ≠ .readOnly)
     else decide (ifld w 6 6 = 0))
  else if m = 0x2A then decide (ifld w 16 5 = 0)
  else if m = 0x2B then decide (ifld w 0 26 = 0)
  else if m = 0x2C then decide (ifld w 22 4 = 0) && (decide (5 ≤ ifld w 0 6) || decide (ifld w 6 16 = 0))
  else if m = 0x30 then
    let minor := ifld w 0 4
    if minor = 5 then decide (ifld w 4 2 = 0 ∧ ifld w 16 5 = 0 ∧ ifld w 6 5 = 0)
    else if minor < 5 then decide (ifld w 4 2 = 0) else decide (ifld w 4 2 ≠ 3)
  else if m = 0x31 then
    let minor := ifld w 0 6
    if minor = 3 ∨ minor = 5 then decide (ifld w 6 11 = 0)
    else if minor ≤ 4 then decide (ifld w 6 14 = 0)
    else if minor = 6 then decide (ifld w 17 6 = 0 ∧ ifld w 6 2 = 0 ∧ ifld w 8 2 ≠ 3)
    else decide (ifld w 6 11 = 0)
  else if m = 0x33 then stringHeadOk (ifld w 0 6) (ifld w 21 5) (ifld w 16 5) (ifld w 11 5) (ifld w 6 5)
  else if m = 0x34 then
    let minor := ifld w 0 6
    let rd := ifld w 21 5
    let rs := ifld w 16 5
    let rt := ifld w 11 5
    if minor = 1 then decide (ifld w 6 5 = 0) && distinctPointers [rd, rs, rt]
    else decide (ifld w 8 8 = 0) && (if minor = 0 then distinctPointers [rd, rs] else decide (rd ≠ 0))
  else if m = 0x36 then decide (ifld w 0 2 = 0 ∧ ifld w 3 3 = 0)
  else if m = 0x38 then decide (ifld w 20 2 ≠ 3 ∧ (ifld w 20 2 ≠ 2 ∨ ifld w 22 4 % 2 = 0))
  else if m = 0x3A then decide (ifld w 6 2 = 0) && floatFieldsOk (ifld w 0 6) (ifld w 22 4) (ifld w 18 4) (ifld w 14 4) (ifld w 10 4) (ifld w 8 2)
  else if m = 0x3B then
    let minor := ifld w 0 6
    decide (ifld w 6 8 = 0) &&
    (if minor ≤ 1 then decide (ifld w 15 2 ≠ 3 ∨ ifld w 17 4 % 2 = 0)
     else if minor ≤ 3 then decide (ifld w 14 3 = 0)
     else decide (ifld w 14 12 = 0))
  else if m = 0x3C then decide (ifld w 20 1 = 0 ∨ ifld w 22 4 % 2 = 0)
  else true

/-- The fields of a two-word instruction that need its second word (R172, R173, R194-R196). -/
def longFieldsOk (w v : BitVec 32) : Bool :=
  if major w = 0x30 then decide (ifld w 0 4 ≠ 5 ∨ ifld v 0 16 = 0)
  else decide (ifld v 16 16 = 0 ∧ ifld v 13 1 = 0) &&
    stringFieldsOk (ifld w 0 6) (ifld w 21 5) (ifld w 16 5) (ifld w 11 5) (ifld w 6 5)
      (decide (ifld v 15 1 = 1)) (decide (ifld v 14 1 = 1)) (ifld v 8 5) (ifld v 0 8)

/-- R264, R266: the ILLEGAL code of a word taken alone, with the second word of a two-word form; none for a legal word. -/
def wordCode (sup : Bool) (w : BitVec 32) (second : Option (BitVec 32)) : Option Nat :=
  let m := major w
  if m = 0x3E then none
  else if !majorDefined m then some 1
  else if !minorDefined w then some 1
  else if !fieldsOk sup w then some 2
  else if (match second with | some v => !longFieldsOk w v | none => false) then some 2
  else if m = 0x20 ∧ ifld w 22 4 = 0 then some 4
  else none

/-- The detail of ILLEGAL (R267). -/
def illegalDetail (second : Bool) (m code : Nat) : Nat := (if second then 0x4000 else 0) + m * 256 + code

/-- R150, R266: the ILLEGAL detail of a REP pair; none for a legal pair. -/
def repDetail (sup : Bool) (low : BitVec 26) (second : BitVec 32) : Option Nat :=
  if low ≠ 0 then some (illegalDetail false 0x2B 2)
  else match wordCode sup second none with
    | some k => some (illegalDetail true (major second) k)
    | none => if major second = 0x34 then none else some (illegalDetail true (major second) 3)

/-- A word of code, and whether its granule is poisoned. -/
def codeWord (c : Ctx) (a : Nat) : BitVec 32 × Bool :=
  let bs := c.codeBytes a 4
  (BitVec.ofNat 32 (ofLe (vals bs)), anyPoison bs)

/-- The fetch check of one word (R268, R304, R309). -/
def fetchCheck (c : Ctx) (a : Nat) : Option Exc :=
  match c.d.checkAccess c.who .fetch a 4 with
  | some (x, r) => some ⟨if r = .address then 5 else 3, 0, word x, some r⟩
  | none => if (codeWord c a).2 then some ⟨13, 1, word a, none⟩ else none

/-- The exception that fetching and decoding the instruction at the thread's PC raises (R266-R268), if any. A fetch fault on any word comes
before any decoding check. -/
def decodeExc (c : Ctx) : Option Exc :=
  let a := c.t.pc.toNat
  match fetchCheck c a with
  | some e => some e
  | none =>
    let w := (codeWord c a).1
    let m := major w
    if isLong m ∨ m = 0x2B then
      match fetchCheck c (a + 4) with
      | some e => some e
      | none =>
        let v := (codeWord c (a + 4)).1
        if m = 0x2B then (repDetail c.t.sup (w.setWidth 26) v).map (fun k => ⟨1, word k, 0, none⟩)
        else (wordCode c.t.sup w (some v)).map (fun k => ⟨1, word (illegalDetail false m k), 0, none⟩)
    else (wordCode c.t.sup w none).map (fun k => ⟨1, word (illegalDetail false m k), 0, none⟩)

/-- EXCEPTION_ENTRY (R268, R285): the exception that the fetch or the decoding of thread `g`'s next instruction raises; an exception of
the instruction itself is taken by the instruction's own command. A fetch fault keeps a resume state (R140); a word that is ILLEGAL is no
LDM or STM. -/
def execExceptionEntry (g : Nat) (s : State) : Host.Outcome State Fault Refusal :=
  runThread g s [] false (fun c =>
    match decodeExc c with
    | some e => .error (.exc (if e.vec = 1 then c else c.withT { c.t with mc := (c.d.thread c.g).mc }) e)
    | none => .error .wait)

end Sys2Proof.Machine
end

