-- ==== Sys2Proof/Decode.lean ====
section
/-! DEFINITION. The command that an instruction's words spell, by the encoding tables of chapters 4 to 8, and the commands that a word
spells for the host's questions. A step that a command makes between two points of interruption is counted by its operand (`n`): the
decoder answers one such step; it answers no upset, which is an event of the memory and no field of the word. -/
namespace Sys2Proof

open Machine

/-- A general register field at bit `lo` of a word. -/
def gfld (w : BitVec 32) (lo : Nat) : GReg := BitVec.ofNat 5 (ifld w lo 5)

/-- A decimal accumulator field at bit `lo` of a word. -/
def dfld (w : BitVec 32) (lo : Nat) : DReg := BitVec.ofNat 3 (ifld w lo 3)

/-- A floating-point register field at bit `lo` of a word. -/
def ffld (w : BitVec 32) (lo : Nat) : FReg := BitVec.ofNat 4 (ifld w lo 4)

/-- A one-bit field of a word. -/
def bfld (w : BitVec 32) (lo : Nat) : Bool := decide (ifld w lo 1 = 1)

/-- The field of `n` bits at bit `lo` of a word. -/
def bits (n : Nat) (w : BitVec 32) (lo : Nat) : BitVec n := BitVec.ofNat n (ifld w lo n)

/-- Major 0x01: the integer register forms (R223). -/
def decodeAlu (g : Nat) (w : BitVec 32) : Option Instr :=
  let rd := gfld w 21
  let ra := gfld w 16
  let rb := gfld w 11
  match ifld w 0 6 with
  | 0x00 => some (.add g rd ra rb)
  | 0x01 => some (.adc g rd ra rb)
  | 0x02 => some (.sub g rd ra rb)
  | 0x03 => some (.sbc g rd ra rb)
  | 0x04 => some (.and g rd ra rb)
  | 0x05 => some (.or g rd ra rb)
  | 0x06 => some (.xor g rd ra rb)
  | 0x07 => some (.andn g rd ra rb)
  | 0x08 => some (.shl g rd ra rb)
  | 0x09 => some (.shr g rd ra rb)
  | 0x0A => some (.sar g rd ra rb)
  | 0x0C => some (.mul g rd ra rb)
  | 0x0D => some (.mulh g rd ra rb)
  | 0x0E => some (.mulhu g rd ra rb)
  | 0x0F => some (.div g rd ra rb (gfld w 6))
  | 0x10 => some (.divu g rd ra rb (gfld w 6))
  | _ => none

/-- Major 0x12: the atomics (R258). -/
def decodeAtomic (g : Nat) (w : BitVec 32) : Option Instr :=
  let rd := gfld w 21
  let ra := gfld w 16
  let rb := gfld w 11
  let sz := bits 2 w 4
  match ifld w 0 4 with
  | 0 => some (.aadd g rd ra rb sz)
  | 1 => some (.aswp g rd ra rb sz)
  | 2 => some (.acas g rd ra rb (gfld w 6) sz)
  | 3 => some (.aand g rd ra rb sz)
  | 4 => some (.aor g rd ra rb sz)
  | _ => none

/-- Major 0x29: windows, special registers and multiple transfers (R156). -/
def decodeSpecial (g : Nat) (w : BitVec 32) : Option Instr :=
  let ra := gfld w 21
  let spr := bits 6 w 6
  match ifld w 0 6 with
  | 0 => some (.retw g)
  | 1 => some (.callwr g ra)
  | 2 => some (.mfs g ra spr)
  | 3 => some (.mts g ra spr)
  | 4 => some (.ldm g ra (gfld w 16) 1)
  | 5 => some (.stm g ra (gfld w 16) 1)
  | _ => none

/-- Major 0x2C: the system group (R261). -/
def decodeSystem (g : Nat) (w : BitVec 32) : Option Instr :=
  match ifld w 0 6 with
  | 0 => some (.scall g)
  | 1 => some (.sret g)
  | 2 => some (.retx g)
  | 3 => some (.fence g)
  | 4 => some (.release g)
  | 5 => some (.trig g (bits 16 w 6))
  | 6 => some (.brk g (bits 16 w 6))
  | _ => none

/-- Major 0x30: the decimal storage forms, two words (R172, R173). -/
def decodeStorage (g : Nat) (w v : BitVec 32) : Option Instr :=
  let ba := gfld w 21
  let bb := gfld w 16
  let l1 := bits 5 w 11
  let l2 := bits 5 w 6
  let d1 := bits 16 v 16
  let d2 := bits 16 v 0
  let pair : DOps := .ss ba bb l1 l2 d1 d2
  match ifld w 0 4 with
  | 0 => some (.dadd g pair)
  | 1 => some (.dsub g pair)
  | 2 => some (.dmul g pair)
  | 3 => some (.ddiv g pair 0)
  | 4 => some (.dcmp g pair)
  | 5 => some (.dtst g ba l1 d1)
  | 6 => some (.dpack g ba bb l1 l2 (bits 2 w 4) d1 d2)
  | 7 => some (.dunpk g ba bb l1 l2 (bits 2 w 4) d1 d2)
  | _ => none

/-- Major 0x31: the decimal accumulator forms (R174). -/
def decodeAccum (g : Nat) (w : BitVec 32) : Option Instr :=
  let dk := dfld w 23
  let dm := dfld w 17
  let pair : DOps := .acc dk (dfld w 20)
  match ifld w 0 6 with
  | 0 => some (.dadd g pair)
  | 1 => some (.dsub g pair)
  | 2 => some (.dmul g pair)
  | 3 => some (.ddiv g pair dm)
  | 4 => some (.dcmp g pair)
  | 5 => some (.dmac g dk (dfld w 20) dm)
  | 6 => some (.dshf g dk (bits 7 w 10) (bits 2 w 8))
  | 7 => some (.dcvb g (gfld w 18) dk (bfld w 17))
  | 8 => some (.dcvd g dk (gfld w 18) (bfld w 17))
  | _ => none

/-- Major 0x33: the whole-string forms, two words (R194, R195). -/
def decodeString (g : Nat) (w v : BitVec 32) : Option Instr :=
  let rd := gfld w 21
  let rs := gfld w 16
  let rn := gfld w 11
  let rt := gfld w 6
  let byte : Byte := bits 8 v 0
  match ifld w 0 6 with
  | 0 => some (.movs g rd rs rn (bfld v 15) byte 1)
  | 1 => some (.movt g rd rs rn rt 1)
  | 2 => some (.cmps g rd rs rn 1)
  | 3 => some (.scan g rs rn (bfld v 14) byte 1)
  | 4 => some (.sctb g rd rs rn rt 1)
  | 5 => some (.edit g rd rs rn rt byte 1)
  | 6 => some (.edloc g rd rs rn rt (gfld v 8) byte 1)
  | _ => none

/-- Major 0x34: the element forms (R218). -/
def decodeElement (g : Nat) (w : BitVec 32) : Option Instr :=
  match ifld w 0 6 with
  | 0 => some (.move g (gfld w 21) (gfld w 16) (bits 2 w 6))
  | 1 => some (.movte g (gfld w 21) (gfld w 16) (gfld w 11))
  | 2 => some (.ste g (gfld w 21) (gfld w 16) (bits 2 w 6))
  | _ => none

/-- Major 0x3A: floating arithmetic (R233). -/
def decodeFloat (g : Nat) (w : BitVec 32) : Option Instr :=
  let fd := ffld w 22
  let fa := ffld w 18
  let fb := ffld w 14
  let fmt := bits 2 w 8
  match ifld w 0 6 with
  | 0x00 => some (.fadd g fmt fd fa fb)
  | 0x01 => some (.fsub g fmt fd fa fb)
  | 0x02 => some (.fmul g fmt fd fa fb)
  | 0x03 => some (.fdiv g fmt fd fa fb)
  | 0x04 => some (.fsqrt g fmt fd fa)
  | 0x05 => some (.fma g fmt fd fa fb (ffld w 10))
  | 0x06 => some (.fcmp g fmt fa fb)
  | 0x07 => some (.fmov g fmt fd fa)
  | 0x08 => some (.fneg g fmt fd fa)
  | 0x09 => some (.fabs g fmt fd fa)
  | 0x0A => some (.fquant g fmt fd fa fb)
  | 0x0B => some (.fcvt g fmt (bits 2 w 12) fd fa)
  | _ => none

/-- Major 0x3B: floating conversions and moves, and the barrier (R234). -/
def decodeConvert (g : Nat) (w : BitVec 32) : Option Instr :=
  let r := gfld w 21
  let f := ffld w 17
  match ifld w 0 6 with
  | 0 => some (.fcvti g r f (bits 2 w 15) (bfld w 14))
  | 1 => some (.fcvif g r f (bits 2 w 15) (bfld w 14))
  | 2 => some (.fmvfx g r f)
  | 3 => some (.fmvxf g r f)
  | 4 => some (.fbar g)
  | _ => none

/-- The command of thread `g` that a legal instruction spells, by its major (R256). -/
def decodeMajor (g : Nat) (w v : BitVec 32) : Option Instr :=
  let r := gfld w 21
  let ra := gfld w 16
  match major w with
  | 0x01 => decodeAlu g w
  | 0x02 => some (.addi g r ra (bits 16 w 0))
  | 0x03 => some (.subi g r ra (bits 16 w 0))
  | 0x04 => some (.andi g r ra (bits 16 w 0))
  | 0x05 => some (.ori g r ra (bits 16 w 0))
  | 0x06 => some (.xori g r ra (bits 16 w 0))
  | 0x07 => some (.movk g r (bits 2 w 16) (bits 16 w 0))
  | 0x08 => some (.shi g r ra (bits 2 w 14) (bits 6 w 0))
  | 0x10 => if bfld w 13 then some (.st g r ra (bits 2 w 14) (bfld w 12) (bits 12 w 0))
      else some (.ld g r ra (bits 2 w 14) (bfld w 12) (bits 12 w 0) [])
  | 0x12 => decodeAtomic g w
  | 0x20 => some (.bc g (bits 4 w 22) (bits 22 w 0))
  | 0x21 => some (.br g (bits 26 w 0))
  | 0x22 => some (.jmpr g r)
  | 0x28 => some (.callw g (bits 26 w 0))
  | 0x29 => decodeSpecial g w
  | 0x2A => some (.loop g r (bits 16 w 0))
  | 0x2B => some (.rep g (bits 26 w 0) v 1)
  | 0x2C => decodeSystem g w
  | 0x30 => decodeStorage g w v
  | 0x31 => decodeAccum g w
  | 0x32 => if bfld w 22 then some (.dsta g (dfld w 23) (gfld w 17) (bits 5 w 12) (bits 12 w 0))
      else some (.dlda g (dfld w 23) (gfld w 17) (bits 5 w 12) (bits 12 w 0))
  | 0x33 => decodeString g w v
  | 0x34 => decodeElement g w
  | 0x36 => some (.post g r ra (gfld w 11) (gfld w 6) (bits 3 w 3) (bfld w 2))
  | 0x38 => if bfld w 14 then some (.fst g (ffld w 22) (bits 2 w 20) (gfld w 15) (bits 14 w 0))
      else some (.fld g (ffld w 22) (bits 2 w 20) (gfld w 15) (bits 14 w 0))
  | 0x3A => decodeFloat g w
  | 0x3B => decodeConvert g w
  | 0x3C => if bfld w 21 then some (.fstp g (ffld w 22) (bfld w 20) (gfld w 15) (bits 5 w 10) (bits 10 w 0))
      else some (.fldp g (ffld w 22) (bfld w 20) (gfld w 15) (bits 5 w 10) (bits 10 w 0))
  | 0x3E => some (.hint g (bits 26 w 0))
  | _ => none

/-- The ILLEGAL detail of the instruction whose first two words are `w` and `v`, in supervisor mode or not; none for a legal instruction
(R264, R266). -/
def illegalOf (sup : Bool) (w v : BitVec 32) : Option Nat :=
  if major w = 0x2B then repDetail sup (w.setWidth 26) v
  else (wordCode sup w (if isLong (major w) then some v else none)).map (illegalDetail false (major w))

/-- The instruction of thread `g` whose first two words are `w` and `v` (the second is looked at only where the first asks for it, R254);
none where decoding raises ILLEGAL, whose entry is the command of `execExceptionEntry`. -/
def decodeInstr (g : Nat) (sup : Bool) (w v : BitVec 32) : Option Instr :=
  match illegalOf sup w v with
  | none => decodeMajor g w v
  | some _ => none

/-- The command that a word of `nbits` bits spells: the instruction of thread 0, in supervisor mode, whose words it is (one word of 32 bits,
or two). The table gives no row any bits, so this answers by the spec's own encodings. DESIGN CHOICE, assumption 105. -/
def decodeTableWord (nbits w : Nat) : Option Instr :=
  if nbits = 32 ∨ nbits = 64 then decodeInstr 0 true (BitVec.ofNat 32 w) (BitVec.ofNat 32 (w / 2 ^ 32)) else none

end Sys2Proof
end

