-- ==== Sys2Proof/Machine/Decimal.lean ====
section
/-! DEFINITION. Packed decimal arithmetic (chapter 5): fields, accumulators, and the instructions of majors 0x30, 0x31 and 0x32. -/
namespace Sys2Proof.Machine

open Sys2Proof

/-- Unspecified bytes (R170): `n` of them. -/
def Ctx.freeBytes : Ctx → Nat → List Byte × Ctx
  | c, 0 => ([], c)
  | c, n + 1 =>
    let r := Ctx.freeBytes (c.withD c.d.draw.2) n
    (BitVec.ofNat 8 c.d.draw.1.toNat :: r.1, r.2)

/-- Nibble `i` of a field, the high nibble of byte 0 first (R158). -/
def nibble (bs : List Byte) (i : Nat) : Nat :=
  let b := (bs.getD (i / 2) 0).toNat
  if i % 2 = 0 then b / 16 else b % 16

/-- The number that nibbles `i .. i + n - 1` spell. -/
def digitRun (bs : List Byte) (i : Nat) : Nat → Nat
  | 0 => 0
  | n + 1 => digitRun bs i n * 10 + nibble bs (i + n)

/-- R159, R177 DecRead: the value of a packed field, or the detail of DECIMAL DATA (R168) for its first invalid nibble. `k` is the
operand number. -/
def packedValue (bs : List Byte) (k : Nat) : Except Nat Int :=
  let n := 2 * bs.length - 1
  match (List.range n).find? (fun i => 9 < nibble bs i) with
  | some i => .error (k + i / 2 * 256)
  | none =>
    let s := nibble bs n
    if s < 10 then .error (k + 4 + (bs.length - 1) * 256)
    else .ok (if s = 0xB ∨ s = 0xD then -(digitRun bs 0 n : Int) else (digitRun bs 0 n : Int))

/-- The `n` low digits of a number as nibbles, most significant first. -/
def digitNibbles (v : Nat) : Nat → List Nat
  | 0 => []
  | n + 1 => digitNibbles (v / 10) n ++ [v % 10]

/-- Nibbles as bytes. -/
def nibbleBytes : List Nat → List Byte
  | a :: b :: r => BitVec.ofNat 8 (16 * a + b) :: nibbleBytes r
  | _ => []

/-- R177 DecWrite: a value as a packed field of `l` bytes with a preferred sign (R160). -/
def packedBytes (l : Nat) (v : Int) : List Byte :=
  nibbleBytes (digitNibbles v.natAbs (2 * l - 1) ++ [if v < 0 then 0xD else 0xC])

/-- R177 Fits and Cut. -/
def fits (v : Int) (n : Nat) : Bool := decide (v.natAbs < 10 ^ n)
def cut (v : Int) (n : Nat) : Int := v.sign * (v.natAbs % 10 ^ n : Nat)

/-- R177 Result: the value that fits, truncated under masked overflow; DECIMAL OVERFLOW otherwise (R169). -/
def decResult (c : Ctx) (r : Int) (n : Nat) : Run (Int × Bool) :=
  if fits r n then .ok (r, false)
  else if c.t.dom then .ok (cut r n, true)
  else raise c 7 0

/-- R177 SetFlags. -/
def Ctx.decFlags (c : Ctx) (v : Int) (ov : Bool) : Ctx := c.setFlags ⟨decide (v < 0), decide (v = 0), false, ov⟩

/-- A source of a decimal instruction: its value, or poisoned (R170). -/
abbrev DVal := Option Int

/-- The read of a checked packed operand (R177): poisoned if any of its bytes is. -/
def decRead (c : Ctx) (a l k : Nat) : Run (DVal × Ctx) :=
  match c.fetchBytes a l with
  | .error e => .error e
  | .ok (bs, c') =>
    if anyPoison bs then .ok (none, c')
    else match packedValue (vals bs) k with
      | .error dtl => raise c' 6 dtl
      | .ok v => .ok (some v, c')

/-- R177 DecWrite of a value. -/
def decWrite (c : Ctx) (a l : Nat) (v : Int) : Run Ctx := c.buffer a (clean (packedBytes l v))

/-- A storage destination written poisoned (R170): unspecified bytes, all marked. -/
def poisonStore (c : Ctx) (a l : Nat) : Run Ctx :=
  let x := c.freeBytes l
  x.2.buffer a (withMark true x.1)

/-- An accumulator's value as a source. -/
def accVal (c : Ctx) (k : DReg) : DVal := if (c.t.acc k).poison then none else some (c.t.acc k).val
/-- An accumulator written. -/
def Ctx.setD (c : Ctx) (k : DReg) (v : Int) : Ctx := c.withT (c.t.setAcc k ⟨v, false⟩)
/-- An accumulator written poisoned, with an unspecified value (R170). -/
def Ctx.poisonD (c : Ctx) (k : DReg) : Ctx :=
  (c.withD c.d.draw.2).withT (c.t.setAcc k ⟨(Config.freeDigits c.d.free).tmod (10 ^ 64), true⟩)

/-- The addresses of the two storage operands (R172): the bases are consumed, operand 1 first (R167 step 2). -/
def storageOperands (c : Ctx) (ba bb : GReg) (d1 d2 : BitVec 16) : Run (Nat × Nat) :=
  match c.baseDisp ba d1 with
  | .error e => .error e
  | .ok a1 => match c.baseDisp bb d2 with
    | .error e => .error e
    | .ok a2 => .ok (a1, a2)

/-- The storage operands of a decimal instruction (R172): addresses, lengths, and the column in which operand 1 is checked (R173). -/
structure SOps where
  a1 : Nat
  n1 : Nat
  a2 : Nat
  n2 : Nat
  acc : Acc
  deriving DecidableEq, Repr

/-- R167 steps 2 and 3 for two operands: bases, then the checks in the columns of R173. Nothing changes yet. -/
def storageChecks (c : Ctx) (acc1 : Acc) (ba bb : GReg) (l1 l2 : BitVec 5) (d1 d2 : BitVec 16) : Run SOps :=
  match storageOperands c ba bb d1 d2 with
  | .error e => .error e
  | .ok (a1, a2) => match c.probe acc1 a1 (l1.toNat + 1) with
    | .error e => .error e
    | .ok () => match c.probe .load a2 (l2.toNat + 1) with
      | .error e => .error e
      | .ok () => .ok ⟨a1, l1.toNat + 1, a2, l2.toNat + 1, acc1⟩

/-- The frames of the operands are marked (R312) once no check of R167 can fail. -/
def SOps.mark (o : SOps) (c : Ctx) : Ctx := (c.mark o.acc o.a1 o.n1).mark .load o.a2 o.n2

/-- The two sources of a decimal instruction, read after its checks, with where operand 1 lies in a storage form. -/
structure DPair where
  x : DVal
  y : DVal
  c : Ctx
  deriving DecidableEq, Repr

/-- R178, R192: both storage operands, each read once. -/
def SOps.readPair (o : SOps) (c : Ctx) : Run DPair :=
  match decRead c o.a1 o.n1 1 with
  | .error e => .error e
  | .ok (x, c) => match decRead c o.a2 o.n2 2 with
    | .error e => .error e
    | .ok (y, c) => .ok ⟨x, y, c⟩

/-- DADD, DSUB and DMUL with exact operation `f` (R178). -/
def decArith (ops : DOps) (f : Int → Int → Int) (c : Ctx) : Run Out :=
  match ops with
  | .ss ba bb l1 l2 d1 d2 =>
    match storageChecks c .store ba bb l1 l2 d1 d2 with
    | .error e => .error e
    | .ok o =>
      match o.readPair c with
      | .error e => .error e
      | .ok p =>
        match p.x, p.y with
        | some x, some y =>
          match decResult p.c (f x y) (2 * o.n1 - 1) with
          | .error e => .error e
          | .ok (v, ov) => match decWrite (o.mark p.c) o.a1 o.n1 v with
            | .error e => .error e
            | .ok c => seq8 (c.decFlags v ov)
        | _, _ => match poisonStore (o.mark p.c) o.a1 o.n1 with
          | .error e => .error e
          | .ok c => seq8 c.poisonFl
  | .acc dk dj =>
    let c := lazyFill c
    match accVal c dk, accVal c dj with
    | some x, some y =>
      match decResult c (f x y) 64 with
      | .error e => .error e
      | .ok (v, ov) => seq4 ((c.setD dk v).decFlags v ov)
    | _, _ => seq4 (c.poisonD dk).poisonFl

/-- The general registers that a decimal instruction names. -/
def dopsRegs : DOps → List GReg
  | .ss ba bb _ _ _ _ => [ba, bb]
  | .acc _ _ => []

/-- DADD (R178). -/
def execDadd (g : Nat) (ops : DOps) (s : State) : Host.Outcome State Fault Refusal :=
  runThread g s (dopsRegs ops) true (decArith ops (· + ·))
/-- DSUB (R178). -/
def execDsub (g : Nat) (ops : DOps) (s : State) : Host.Outcome State Fault Refusal :=
  runThread g s (dopsRegs ops) true (decArith ops (· - ·))
/-- DMUL (R178). -/
def execDmul (g : Nat) (ops : DOps) (s : State) : Host.Outcome State Fault Refusal :=
  runThread g s (dopsRegs ops) true (decArith ops (· * ·))

/-- DDIV by zero (R169, R179): DECIMAL DIVIDE, or DZ when masked. -/
def divByZero (c : Ctx) (done : Ctx → Run Out) : Run Out :=
  if c.t.ddm then done c.setDz else raise c 8 0

/-- DDIV (R179): the storage form keeps the quotient, the accumulator form also writes the remainder to Dm. -/
def decDivide (ops : DOps) (dm : DReg) (c : Ctx) : Run Out :=
  match ops with
  | .ss ba bb l1 l2 d1 d2 =>
    match storageChecks c .store ba bb l1 l2 d1 d2 with
    | .error e => .error e
    | .ok o =>
      match o.readPair c with
      | .error e => .error e
      | .ok p =>
        match p.x, p.y with
        | some x, some y =>
          if y = 0 then divByZero p.c (fun c => seq8 (o.mark c))
          else match decWrite (o.mark p.c) o.a1 o.n1 (x.tdiv y) with
            | .error e => .error e
            | .ok c => seq8 (c.decFlags (x.tdiv y) false)
        | _, _ => match poisonStore (o.mark p.c) o.a1 o.n1 with
          | .error e => .error e
          | .ok c => seq8 c.poisonFl
  | .acc dk dj =>
    let c := lazyFill c
    match accVal c dk, accVal c dj with
    | some x, some y =>
      if y = 0 then divByZero c seq4
      else
        let c := c.setD dk (x.tdiv y)
        let c := if dm = dk then c else c.setD dm (x.tmod y)
        seq4 (c.decFlags (x.tdiv y) false)
    | _, _ =>
      let c := c.poisonD dk
      seq4 (if dm = dk then c else c.poisonD dm).poisonFl

/-- DDIV (R179). -/
def execDdiv (g : Nat) (ops : DOps) (dm : DReg) (s : State) : Host.Outcome State Fault Refusal :=
  runThread g s (dopsRegs ops) true (decDivide ops dm)

/-- The flags of a numeric compare (R165, R180). -/
def compareFlags (a b : Int) : Nzcv := ⟨decide (a < b), decide (a = b), decide (b ≤ a), false⟩

/-- DCMP (R180). -/
def execDcmp (g : Nat) (ops : DOps) (s : State) : Host.Outcome State Fault Refusal :=
  runThread g s (dopsRegs ops) true (fun c =>
    match ops with
    | .ss ba bb l1 l2 d1 d2 =>
      match storageChecks c .load ba bb l1 l2 d1 d2 with
      | .error e => .error e
      | .ok o => match o.readPair c with
        | .error e => .error e
        | .ok p => match p.x, p.y with
          | some x, some y => seq8 ((o.mark p.c).setFlags (compareFlags x y))
          | _, _ => seq8 (o.mark p.c).poisonFl
    | .acc dk dj =>
      let c := lazyFill c
      match accVal c dk, accVal c dj with
      | some x, some y => seq4 (c.setFlags (compareFlags x y))
      | _, _ => seq4 c.poisonFl)

/-- DMAC (R181). -/
def execDmac (g : Nat) (dk dj dm : DReg) (s : State) : Host.Outcome State Fault Refusal :=
  runThread g s [] true (fun c =>
    let c := lazyFill c
    match accVal c dk, accVal c dj, accVal c dm with
    | some x, some y, some z =>
      match decResult c (x + y * z) 64 with
      | .error e => .error e
      | .ok (v, ov) => seq4 ((c.setD dk v).decFlags v ov)
    | _, _, _ => seq4 (c.poisonD dk).poisonFl)

/-- DSHF's exact result (R182): a shift by a power of ten, a right shift rounded by `rm`. -/
def shiftDec (x : Int) (n : Int) (rm : Nat) : Int :=
  if 0 ≤ n then x * 10 ^ n.toNat
  else
    let t := 10 ^ (-n).toNat
    let q := x.natAbs / t
    let f := x.natAbs % t
    let up := (rm = 0 ∧ t ≤ 2 * f) ∨ (rm = 1 ∧ (t < 2 * f ∨ (2 * f = t ∧ q % 2 = 1)))
    x.sign * ((if up then q + 1 else q : Nat) : Int)

/-- DSHF (R182): rm 0b11 is ILLEGAL, code 2 (R174). -/
def execDshf (g : Nat) (dk : DReg) (n : BitVec 7) (rm : BitVec 2) (s : State) : Host.Outcome State Fault Refusal :=
  runThread g s [] true (fun c =>
    if rm = 3 then illegal c 2 0x31
    else
      let c := lazyFill c
      match accVal c dk with
      | none => seq4 (c.poisonD dk).poisonFl
      | some x => match decResult c (shiftDec x n.toInt rm.toNat) 64 with
        | .error e => .error e
        | .ok (v, ov) => seq4 ((c.setD dk v).decFlags v ov))

/-- DLDA (R184). -/
def execDlda (g : Nat) (dk : DReg) (ra : GReg) (l : BitVec 5) (disp : BitVec 12) (s : State) :
    Host.Outcome State Fault Refusal :=
  runThread g s [ra] true (fun c =>
    match c.baseDisp ra disp with
    | .error e => .error e
    | .ok a => match c.probe .load a (l.toNat + 1) with
      | .error e => .error e
      | .ok () => match decRead (lazyFill c) a (l.toNat + 1) 1 with
        | .error e => .error e
        | .ok (some x, c) => seq4 (((c.mark .load a (l.toNat + 1)).setD dk x).decFlags x false)
        | .ok (none, c) => seq4 ((c.mark .load a (l.toNat + 1)).poisonD dk).poisonFl)

/-- DSTA (R184). -/
def execDsta (g : Nat) (dk : DReg) (ra : GReg) (l : BitVec 5) (disp : BitVec 12) (s : State) :
    Host.Outcome State Fault Refusal :=
  runThread g s [ra] true (fun c =>
    match c.baseDisp ra disp with
    | .error e => .error e
    | .ok a =>
      let n := l.toNat + 1
      match c.probe .store a n with
      | .error e => .error e
      | .ok () =>
        let c := lazyFill c
        match accVal c dk with
        | none => match poisonStore (c.mark .store a n) a n with
          | .error e => .error e
          | .ok c => seq4 c.poisonFl
        | some x => match decResult c x (2 * n - 1) with
          | .error e => .error e
          | .ok (v, ov) => match decWrite (c.mark .store a n) a n v with
            | .error e => .error e
            | .ok c => seq4 (c.decFlags v ov))

/-- R161, R162, R185: the value of a zoned field under sign convention `m`, or the detail of DECIMAL DATA for its first invalid
byte, in byte order. -/
def zonedValue (bs : List Byte) (m : Nat) : Except Nat Int :=
  let l := bs.length
  let isSign (i : Nat) : Bool := (m == 1 && i + 1 == l) || (m == 2 && i == 0)
  let ok (i : Nat) : Bool :=
    let b := (bs.getD i 0).toNat
    if isSign i then b == 0x2B || b == 0x2D else decide (0x30 ≤ b ∧ b ≤ 0x39)
  match (List.range l).find? (fun i => !ok i) with
  | some i => .error (2 + (if isSign i then 4 else 0) + i * 256)
  | none =>
    let ds := (List.range l).filter (fun i => !isSign i)
    let v := ds.foldl (fun v i => v * 10 + ((bs.getD i 0).toNat - 0x30)) 0
    let neg := (List.range l).any (fun i => isSign i && (bs.getD i 0).toNat == 0x2D)
    .ok (if neg then -(v : Int) else (v : Int))

/-- R186: a value as a zoned field of `l` bytes under sign convention `m`. -/
def zonedBytes (l m : Nat) (v : Int) : List Byte :=
  let sign : Byte := if v < 0 then 0x2D else 0x2B
  let ds (n : Nat) := (digitNibbles v.natAbs n).map (fun x => BitVec.ofNat 8 (0x30 + x))
  if m = 0 then ds l else if m = 1 then ds (l - 1) ++ [sign] else sign :: ds (l - 1)

/-- DPACK (R185): m 0b11 is ILLEGAL, code 2. -/
def execDpack (g : Nat) (ba bb : GReg) (l1 l2 : BitVec 5) (m : BitVec 2) (d1 d2 : BitVec 16) (s : State) :
    Host.Outcome State Fault Refusal :=
  runThread g s [ba, bb] true (fun c =>
    if m = 3 then illegal c 2 0x30
    else match storageChecks c .store ba bb l1 l2 d1 d2 with
      | .error e => .error e
      | .ok o =>
        match c.fetchBytes o.a2 o.n2 with
        | .error e => .error e
        | .ok (bs, c) =>
          if anyPoison bs then
            match poisonStore (o.mark c) o.a1 o.n1 with
            | .error e => .error e
            | .ok c => seq8 c.poisonFl
          else match zonedValue (vals bs) m.toNat with
            | .error dtl => raise c 6 dtl
            | .ok x => match decResult c x (2 * o.n1 - 1) with
              | .error e => .error e
              | .ok (v, ov) => match decWrite (o.mark c) o.a1 o.n1 v with
                | .error e => .error e
                | .ok c => seq8 (c.decFlags v ov))

/-- DUNPK (R186): m 0b11 is ILLEGAL, code 2. -/
def execDunpk (g : Nat) (ba bb : GReg) (l1 l2 : BitVec 5) (m : BitVec 2) (d1 d2 : BitVec 16) (s : State) :
    Host.Outcome State Fault Refusal :=
  runThread g s [ba, bb] true (fun c =>
    if m = 3 then illegal c 2 0x30
    else match storageChecks c .store ba bb l1 l2 d1 d2 with
      | .error e => .error e
      | .ok o =>
        match decRead c o.a2 o.n2 2 with
        | .error e => .error e
        | .ok (none, c) => match poisonStore (o.mark c) o.a1 o.n1 with
          | .error e => .error e
          | .ok c => seq8 c.poisonFl
        | .ok (some x, c) => match decResult c x (if m = 0 then o.n1 else o.n1 - 1) with
          | .error e => .error e
          | .ok (v, ov) => match (o.mark c).buffer o.a1 (clean (zonedBytes o.n1 m.toNat v)) with
            | .error e => .error e
            | .ok c => seq8 (c.decFlags v ov))

/-- DCVB (R187): the low 64 bits under masked overflow. -/
def execDcvb (g : Nat) (rd : GReg) (dk : DReg) (u : Bool) (s : State) : Host.Outcome State Fault Refusal :=
  runThread g s [rd] true (fun c =>
    let c := lazyFill c
    match accVal c dk with
    | none => seq4 (c.poisonR rd).poisonFl
    | some x =>
      let inRange := if u then decide (0 ≤ x ∧ x < 2 ^ 64) else decide (-(2 ^ 63) ≤ x ∧ x < 2 ^ 63)
      if !inRange && !c.t.dom then raise c 7 0
      else seq4 ((c.setR rd ⟨BitVec.ofInt 64 x, false⟩).decFlags x (!inRange)))

/-- DCVD (R187). -/
def execDcvd (g : Nat) (dk : DReg) (ra : GReg) (u : Bool) (s : State) : Host.Outcome State Fault Refusal :=
  runThread g s [ra] true (fun c =>
    let c := lazyFill c
    let r := c.r ra
    if r.poison then seq4 (c.poisonD dk).poisonFl
    else
      let x : Int := if u then r.val.toNat else r.val.toInt
      seq4 ((c.setD dk x).decFlags x false))

/-- DTST (R189): DI 1 for an invalid or a poisoned field; a poisoned one also poisons FL. -/
def execDtst (g : Nat) (ba : GReg) (l1 : BitVec 5) (d1 : BitVec 16) (s : State) : Host.Outcome State Fault Refusal :=
  runThread g s [ba] true (fun c =>
    match c.baseDisp ba d1 with
    | .error e => .error e
    | .ok a => match c.check .load a (l1.toNat + 1) with
      | .error e => .error e
      | .ok c => match c.fetchBytes a (l1.toNat + 1) with
        | .error e => .error e
        | .ok (bs, c) =>
          if anyPoison bs then seq8 (c.poisonFl.setDi true)
          else match packedValue (vals bs) 1 with
            | .ok _ => seq8 (c.setDi false)
            | .error _ => seq8 (c.setDi true))

end Sys2Proof.Machine
end

