-- ==== Sys2Proof/Machine/Hash.lean ====
section
/-! DEFINITION. The checks and digests the spec names: CRC-32C (R42), SipHash-2-4 (R79) and SHAKE256 (R349). -/
namespace Sys2Proof.Machine

open Sys2Proof

/-- One bit of the reflected Castagnoli CRC. -/
def crcBit (c : BitVec 32) : BitVec 32 := if c.getLsbD 0 then (c >>> 1) ^^^ 0x82F63B78#32 else c >>> 1
/-- One byte. -/
def crcByte (c : BitVec 32) (b : Byte) : BitVec 32 :=
  (List.range 8).foldl (fun c _ => crcBit c) (c ^^^ b.setWidth 32)
/-- CRC-32C (R42): Castagnoli polynomial, initial value all ones, final inversion. -/
def crc32c (bs : List Byte) : Nat := (~~~(bs.foldl crcByte 0xFFFFFFFF#32)).toNat

/-- The state of SipHash. -/
structure Sip where
  v0 : Word
  v1 : Word
  v2 : Word
  v3 : Word

/-- One round of SipHash. -/
def sipRound (s : Sip) : Sip :=
  let a0 := s.v0 + s.v1
  let a1 := (s.v1.rotateLeft 13) ^^^ a0
  let a0 := a0.rotateLeft 32
  let a2 := s.v2 + s.v3
  let a3 := (s.v3.rotateLeft 16) ^^^ a2
  let b0 := a0 + a3
  let b3 := (a3.rotateLeft 21) ^^^ b0
  let b2 := a2 + a1
  let b1 := (a1.rotateLeft 17) ^^^ b2
  ⟨b0, b1, b2.rotateLeft 32, b3⟩

/-- One 8-byte word of the message: two compression rounds. -/
def sipWord (s : Sip) (m : Word) : Sip :=
  let t := sipRound (sipRound { s with v3 := s.v3 ^^^ m })
  { t with v0 := t.v0 ^^^ m }

/-- SipHash-2-4 with 64-bit output of the eight bytes of a word, under a 16-byte key (R79). -/
def sipHash8 (key : List Byte) (m : Word) : Word :=
  let k0 := word (ofLe (key.take 8))
  let k1 := word (ofLe ((key.drop 8).take 8))
  let s : Sip := ⟨k0 ^^^ 0x736f6d6570736575#64, k1 ^^^ 0x646f72616e646f6d#64,
    k0 ^^^ 0x6c7967656e657261#64, k1 ^^^ 0x7465646279746573#64⟩
  let s := sipWord (sipWord s m) (word (8 * 2 ^ 56))
  let s := { s with v2 := s.v2 ^^^ 0xFF#64 }
  let s := sipRound (sipRound (sipRound (sipRound s)))
  s.v0 ^^^ s.v1 ^^^ s.v2 ^^^ s.v3

/-- The walk of FIPS 202 over the lanes other than (0, 0): each lane's number and how far it is rotated. -/
def rotWalk : Nat → Nat → Nat → List (Nat × Nat)
  | 0, _, _ => []
  | n + 1, x, y => (x + 5 * y, (24 - n) * (25 - n) / 2 % 64) :: rotWalk n y ((2 * x + 3 * y) % 5)

/-- How far lane `i` is rotated. -/
def laneTurn (i : Nat) : Nat := ((rotWalk 24 1 0).find? (fun p => p.1 == i)).elim 0 (fun p => p.2)

/-- The bits that the linear feedback shift register of FIPS 202 gives, from register contents `s`. -/
def lfsrBits : Nat → Nat → List Bool
  | 0, _ => []
  | n + 1, s => s.testBit 0 :: lfsrBits n (if 128 ≤ s then (2 * s) ^^^ 0x171 else 2 * s)

/-- The constants of the 24 rounds: seven bits of the register each, at the places 2^j - 1. -/
def roundConsts : List Word :=
  let bits := lfsrBits 168 1
  (List.range 24).map (fun k =>
    word ((List.range 7).map (fun j => if bits.getD (7 * k + j) false then 2 ^ (2 ^ j - 1) else 0)).sum)

/-- Lane (x, y) of a state, the coordinates taken modulo 5. -/
def laneAt (a : List Word) (x y : Nat) : Word := a.getD (x % 5 + 5 * (y % 5)) 0

/-- A state from what each lane is to be. -/
def fromLanes (f : Nat → Nat → Word) : List Word := (List.range 25).map (fun i => f (i % 5) (i / 5))

/-- One round (theta; rho and pi; chi; iota). -/
def keccakRound (a : List Word) (rc : Word) : List Word :=
  let parity := (List.range 5).map (fun x => (List.range 5).foldl (fun w y => w ^^^ laneAt a x y) 0)
  let mixed := fromLanes (fun x y => laneAt a x y ^^^ laneAt parity (x + 4) 0 ^^^ (laneAt parity (x + 1) 0).rotateLeft 1)
  let moved := fromLanes (fun x y =>
    let from_ := (x + 3 * y) % 5
    (laneAt mixed from_ x).rotateLeft (laneTurn (from_ + 5 * x)))
  fromLanes (fun x y =>
    laneAt moved x y ^^^ (~~~(laneAt moved (x + 1) y) &&& laneAt moved (x + 2) y) ^^^ (if x + y = 0 then rc else 0))

/-- Keccak-f[1600]. -/
def keccakF (a : List Word) : List Word := roundConsts.foldl keccakRound a

/-- Bytes cut into lanes of eight. -/
def lanes : Nat → List Byte → List Word
  | 0, _ => []
  | n + 1, bs => word (ofLe (bs.take 8)) :: lanes n (bs.drop 8)

/-- A 136-byte block absorbed. -/
def absorb (a : List Word) (block : List Byte) : List Word :=
  let m := lanes 17 block
  keccakF ((List.range 25).map (fun i => a.getD i 0 ^^^ m.getD i 0))

/-- All whole blocks absorbed, then the padded last one; `fuel` bounds the number of blocks. -/
def absorbAll : Nat → List Word → List Byte → List Word
  | 0, a, _ => a
  | n + 1, a, bs =>
    if bs.length < 136 then
      let pad := bs ++ [0x1F#8] ++ List.replicate (135 - bs.length) 0#8
      absorb a (pad.take 135 ++ [(pad.getD 135 0) ||| 0x80#8])
    else absorbAll n (absorb a (bs.take 136)) (bs.drop 136)

/-- SHAKE256 with 256 bits of output (FIPS 202). PRESUMED, assumption 12. -/
def shake256 (bs : List Byte) : List Byte :=
  let a := absorbAll (bs.length / 136 + 1) (List.replicate 25 0#64) bs
  ((a.take 4).map (fun w => leBytes 8 w.toNat)).flatten

end Sys2Proof.Machine
end

