-- ==== Sys2Proof/Machine/Link.lean ====
section
/-! DEFINITION. The Loop Line's ports and frames (R365-R371): who the holders are, sending a frame, and the East stream of journal and state
units. -/
namespace Sys2Proof.Machine

open Sys2Proof


/-- Something leaves the device. DESIGN CHOICE, assumption 48. -/
def Dev.say (d : Dev) (m : OutMsg) : Dev := { d with out := d.out ++ [m] }

/-- An edge-signalled interrupt source rises (R289). -/
def Dev.edge (d : Dev) (source : Nat) : Dev :=
  if d.edges.contains source then d else { d with edges := d.edges ++ [source] }

/-- The device with another ring state. -/
def Dev.withRing (d : Dev) (f : Ring → Ring) : Dev := { d with ring := f d.ring }

/-- A member changes state in this device's view (R396, interrupt sources 32 + m). -/
def Dev.memberEdge (d : Dev) (m : Nat) : Dev := d.edge (32 + m)

/-- Whether member `m` is live in this device's view. -/
def Ring.isLive (r : Ring) (m : Nat) : Bool := r.live.testBit m
/-- The `k`-th ring ID East of `i`. -/
def Dev.eastOf (d : Dev) (i k : Nat) : Nat := if d.tt.n = 0 then i else (i + k) % d.tt.n
/-- The live members East of `i`, nearest first, `i` apart. -/
def Dev.liveEast (d : Dev) (i : Nat) : List Nat :=
  ((List.range (d.tt.n - 1)).map (fun k => d.eastOf i (k + 1))).filter d.ring.isLive
/-- The live members West of `i`, nearest first. -/
def Dev.liveWest (d : Dev) (i : Nat) : List Nat := (d.liveEast i).reverse
/-- S1(i) (R365). -/
def Dev.s1 (d : Dev) (i : Nat) : Option Nat := (d.liveEast i).head?
/-- The holders of `i` (R365): two with three or more live members, one with two, none with one. -/
def Dev.holders (d : Dev) (i : Nat) : List Nat := (d.liveEast i).take 2
/-- The ring leader (R365). -/
def Dev.leader (d : Dev) : Nat := ((List.range 16).find? d.ring.isLive).getD 0

/-- The header bytes 0-27 of a frame (R369). -/
def frameHead (f : LFrame) : List Byte :=
  leBytes 2 f.magic ++ leBytes 1 f.fver ++ leBytes 1 f.typ ++ leBytes 1 (f.origin % 16 + 16 * (f.hops % 16))
  ++ leBytes 1 (f.sender % 16) ++ leBytes 1 f.body.length ++ leBytes 1 f.fmt ++ leBytes 8 f.ringname
  ++ leBytes 4 f.fseq ++ leBytes 4 f.ackseq ++ leBytes 1 f.nak.toNat ++ leBytes 3 0
/-- The CRC of a frame (R369). -/
def frameCheck (f : LFrame) : Nat := crc32c (frameHead f ++ f.body.flatten)

/-- The port of a direction, and the device with it changed. -/
def Dev.port (d : Dev) (east : Bool) : Port := if east then d.ring.east else d.ring.west
def Dev.setPort (d : Dev) (east : Bool) (p : Port) : Dev :=
  d.withRing (fun r => if east then { r with east := p } else { r with west := p })
/-- A port that carries frames (R368, R395). -/
def Port.carries (p : Port) : Bool := p.up && !p.heldDown

/-- One waiting frame leaves (R370): it takes the next FSEQ and is kept until it is acknowledged. -/
def Dev.sendOne (d : Dev) (east : Bool) : Dev :=
  let p := d.port east
  match p.txq with
  | [] => d
  | f :: rest =>
    if p.carries && decide (p.store.length < 512) then
      let f := { f with sender := d.tt.ringId, ringname := d.tt.ringname, fseq := p.fseq, ackseq := p.expect, nak := p.nak }
      let f := { f with crc := frameCheck f }
      (d.setPort east { p with txq := rest, store := p.store ++ [f], fseq := (p.fseq + 1) % 2 ^ 32, nak := false }).say
        (.frame east f)
    else d

/-- Every waiting frame that can leave does. -/
def Dev.pumpPort (d : Dev) (east : Bool) : Dev :=
  (List.range (d.port east).txq.length).foldl (fun d _ => d.sendOne east) d

/-- A frame to send on a port; a port that is down keeps it only if `keep`. -/
def Dev.sendFrame (d : Dev) (east : Bool) (f : LFrame) (keep : Bool := true) : Dev :=
  let p := d.port east
  if p.carries || keep then (d.setPort east { p with txq := p.txq ++ [f] }).pumpPort east else d

/-- A frame that this device creates. -/
def Dev.newFrame (d : Dev) (typ hops fmt : Nat) (body : List (List Byte)) : LFrame :=
  ⟨0x4C4C, 1, typ, d.tt.ringId, hops, d.tt.ringId, fmt, d.tt.ringname, 0, 0, false, 0, body⟩

/-- The units of a stream item: whether it is a journal unit, and the bytes. -/
def Dev.itemUnits (d : Dev) : SBody → Bool × List (List Byte)
  | .unit i => (true, ((d.jnl.units.find? (fun u => u.id == i)).map (fun u => [u.bytes])).getD [])
  | .state us => (false, us)

/-- The items that the next frame takes: of one kind, in stream order, at most `room` units (R373). It answers the stream with them marked as sent,
and the items. -/
def Dev.takeItems (d : Dev) (journal : Bool) : Nat → List SItem → List SItem × List SItem
  | _, [] => ([], [])
  | room, it :: rest =>
    let u := d.itemUnits it.body
    if it.sent then
      let r := d.takeItems journal room rest
      (it :: r.1, r.2)
    else if u.1 = journal ∧ u.2.length ≤ room then
      let r := d.takeItems journal (room - u.2.length) rest
      ({ it with sent := true } :: r.1, it :: r.2)
    else (it :: rest, [])

/-- The units that items name have been sent East (R350, R355). -/
def Dev.markSent (d : Dev) (items : List SItem) : Dev :=
  { d with jnl := { d.jnl with units := d.jnl.units.map (fun u =>
    if items.any (fun it => decide (it.body = .unit u.id)) then { u with sent := true } else u) } }

/-- What has been sent and is committed leaves the stream; the rest is kept, to be sent again to another holder (R388). -/
def Dev.trimStream (d : Dev) : Dev :=
  d.withRing (fun r => { r with stream := r.stream.filter (fun it => !it.sent || decide (d.jnl.committed < it.epoch)) })

/-- Every unit of the epochs not yet committed is to be sent again, from the oldest on (R352, R388). -/
def Dev.resendStream (d : Dev) : Dev :=
  d.withRing (fun r => { r with stream := r.stream.map (fun it => if d.jnl.committed < it.epoch then { it with sent := false } else it) })

/-- The EAST port can take frames of this device's own stream: a holder is there, and the link keeps fewer than 512 frames (R350, R352, R370). -/
def Dev.streamOpen (d : Dev) : Bool :=
  let p := d.ring.east
  p.carries && p.txq.isEmpty && decide (p.store.length < 512) && !(d.holders d.tt.ringId).isEmpty
    && decide (d.ring.state = .member ∨ d.ring.state = .leaving)

/-- The East stream goes out while it can (R373). -/
def Dev.pumpStream : Nat → Dev → Dev
  | 0, d => d
  | n + 1, d =>
    if d.streamOpen then
      match d.ring.stream.find? (fun it => !it.sent) with
      | none => d
      | some it =>
        let j := (d.itemUnits it.body).1
        let t := d.takeItems j 65 d.ring.stream
        let body := (t.2.map (fun i => (d.itemUnits i.body).2)).flatten
        let d := ((d.withRing (fun r => { r with stream := t.1 })).markSent t.2).trimStream
        let d := if body.isEmpty then d
          else d.sendFrame true (d.newFrame (if j then 1 else 2) 0 (if j then d.ring.fmtcur else 0) body)
        d.pumpStream n
    else d

/-- Everything that can leave East does. -/
def Dev.pumpEast (d : Dev) : Dev := (d.pumpPort true).pumpStream d.ring.stream.length

/-- State units enter the East stream (R373). -/
def Dev.streamState (d : Dev) (us : List (List Byte)) : Dev :=
  d.withRing (fun r => { r with stream := r.stream ++ [⟨d.jnl.epoch, false, .state us⟩] })

/-- Resend what is not acknowledged (R370), counted in LL_ERR.RETRANS; the first frame carries a NAK that is due. DEDUCED, assumption 36. -/
def Dev.resend (d : Dev) (east : Bool) : Dev :=
  if (d.port east).carries then
    (d.port east).store.foldl (fun d f =>
      let p := d.port east
      let f := { f with ackseq := p.expect, nak := p.nak }
      ((d.setPort east { p with nak := false }).count rLlErr 32 16).say (.frame east { f with crc := frameCheck f })) d
  else d

/-- A frame's ACKSEQ acknowledges every kept frame below it (R370). -/
def Port.acked (p : Port) (a : Nat) : Port :=
  { p with store := p.store.filter (fun f => decide ((f.fseq + 2 ^ 32 - a) % 2 ^ 32 < 2 ^ 31)) }

/-- Whether a frame that arrives on a port is accepted (R364, R369-R371). -/
def Dev.frameOk (d : Dev) (east : Bool) (f : LFrame) : Bool :=
  let p := d.port east
  p.carries && decide (f.magic = 0x4C4C ∧ f.fver = 1 ∧ f.crc = frameCheck f ∧ f.fseq = p.expect
    ∧ f.ringname = d.tt.ringname ∧ 1 ≤ f.typ ∧ f.typ ≤ 9 ∧ f.body.length ≤ 65)

/-- How many ring IDs lie strictly between the sender of a frame and this device in the direction of the port (R395). -/
def Dev.between (d : Dev) (east : Bool) (sender : Nat) : Nat :=
  if d.tt.n = 0 then 0
  else if east then (sender + 2 * d.tt.n - d.tt.ringId - 1) % d.tt.n else (d.tt.ringId + 2 * d.tt.n - sender - 1) % d.tt.n

/-- R395: the first frame after training comes from too far away, and the port is held down. -/
def Dev.tooFar (d : Dev) (east : Bool) (f : LFrame) : Bool :=
  !(d.port east).first && decide (3 < d.between east f.sender)

/-- A port is held down until its light is lost and regained (R395). -/
def Dev.holdDown (d : Dev) (east : Bool) : Dev :=
  (d.setPort east { d.port east with heldDown := true }).setRb rLlErr (if east then 0 else 1) true

/-- What every accepted frame does to its link (R370): FSEQ and ACKSEQ advance, a NAK makes the sender resend. -/
def Dev.linkTake (d : Dev) (east : Bool) (f : LFrame) : Dev :=
  let p := d.port east
  let p := { p with expect := (p.expect + 1) % 2 ^ 32, first := true }
  let d := d.setPort east (p.acked f.ackseq)
  let d := if f.nak then d.resend east else d
  (d.pumpPort east).pumpEast

/-- A frame that is accepted: its link, then its effect; a frame from too far holds the port down; nothing otherwise. -/
def Dev.onFrame (d : Dev) (east : Bool) (typ : Nat) (f : LFrame) (effect : Dev → Dev) : Dev :=
  if d.frameOk east f && decide (f.typ = typ) then
    if d.tooFar east f then d.holdDown east else effect (d.linkTake east f)
  else d

/-- The relay rule of R371: a member that is not in MEMBER or LEAVING forwards the frame. -/
def Dev.relays (d : Dev) : Bool := decide (d.ring.state ≠ .member ∧ d.ring.state ≠ .leaving)
/-- A frame goes on in the direction in which it came. -/
def Dev.forward (d : Dev) (east : Bool) (f : LFrame) : Dev := d.sendFrame (!east) f

end Sys2Proof.Machine
end

