-- ==== Sys2Proof/Machine/Hub.lean ====
section
/-! DEFINITION. The queue manager's operations (chapter 2): queues, acknowledgements, duplicate windows, credits and the record buffer. -/
namespace Sys2Proof.Machine

open Sys2Proof

def Dev.withHub (d : Dev) (f : Hub → Hub) : Dev := { d with hub := f d.hub }
def Dev.withYard (d : Dev) (f : Yard → Yard) : Dev := { d with yard := f d.yard }
def Dev.withJnl (d : Dev) (f : Jnl → Jnl) : Dev := { d with jnl := f d.jnl }

/-- The descriptor of queue `q` (R67). -/
def Dev.queue (d : Dev) (q : Nat) : QDesc := SMap.get (fun _ => QDesc.reset) d.hub.queues q
def Dev.setQueue (d : Dev) (q : Nat) (x : QDesc) : Dev :=
  d.withHub (fun h => { h with queues := SMap.set (fun _ => QDesc.reset) h.queues q x })

/-- Entries in a queue (R68), and its size. -/
def QDesc.occ (x : QDesc) : Nat := (x.tail + 2 ^ 32 - x.head) % 2 ^ 32
def QDesc.size (x : QDesc) : Nat := 2 ^ x.log2
def QDesc.full (x : QDesc) : Bool := decide (x.size ≤ x.occ)
/-- A host queue that the device may serve (R69). -/
def QDesc.serves (x : QDesc) (kind : Nat) : Bool := x.enable && !x.qerr && decide (x.kind = kind)

/-- The first queue of a host function (R65), and the controller and function that own a host queue. -/
def hostQueue (ctl func loc : Nat) : Nat := 4160 + 1056 * ctl + 32 * func + loc
def isHostQueue (q : Nat) : Bool := decide (4160 ≤ q ∧ q < 6272)
def queueCtl (q : Nat) : Nat := (q - 4160) / 1056
def queueFunc (q : Nat) : Nat := (q - 4160) % 1056 / 32
def queueLocal (q : Nat) : Nat := (q - 4160) % 32
/-- A journal queue, by its number (R65, R66). -/
def isJournalQueue (q : Nat) : Bool := isHostQueue q && decide (24 ≤ queueLocal q)
/-- A kernel queue, by its number (R65). -/
def isKernelQueue (q : Nat) : Bool := decide (6272 ≤ q ∧ q < 8192)

/-- Occupancy has crossed MARK between two states of a queue (R67, R70). DEDUCED, assumption 32. -/
def crossed (mark before after : Nat) : Bool :=
  decide ((before < mark ∧ mark ≤ after) ∨ (mark < before ∧ after ≤ mark))

/-- The write of WBADDR after a batch, then the MSI-X message where the occupancy has crossed MARK (R70). -/
def Dev.writeBack32 (d : Dev) (q : Nat) (before : QDesc) : Dev :=
  let x := d.queue q
  let index := if x.kind = 4 then x.head else x.tail
  let d := d.say (.hostWrite (queueCtl q) (queueFunc q) x.wb (clean (leBytes 4 index)))
  if crossed x.mark before.occ x.occ then d.say (.msix (queueCtl q) (queueFunc q) x.vector) else d

/-- An entry is put into a host queue that has room (R67, R70): the entry, the new TAIL, WBADDR, the message. DESIGN CHOICE, assumption 103. -/
def Dev.hostPut (d : Dev) (q : Nat) (bs : List PByte) : Dev :=
  let x := d.queue q
  let d := d.say (.hostWrite (queueCtl q) (queueFunc q) (x.base + bs.length * (x.tail % x.size)) bs)
  (d.setQueue q { x with tail := (x.tail + 1) % 2 ^ 32 }).writeBack32 q x

/-- The 16 bytes of an acknowledgement entry (R52). -/
def ackBytes (a : Ack) : List Byte :=
  leBytes 1 a.kind ++ leBytes 1 a.code ++ leBytes 2 a.source ++ leBytes 6 a.seq
  ++ leBytes 2 (match a.owner with | some o => 0x8000 + o % 16 | none => 0) ++ leBytes 4 a.epoch

/-- An acknowledgement entry read back from its bytes. -/
def ackOfBytes (bs : List Byte) : Ack :=
  let n := fun o k => ofLe ((bs.drop o).take k)
  ⟨n 0 1, n 1 1, n 2 2, n 4 6, if 0x8000 ≤ n 10 2 then some (n 10 2 % 16) else none, n 12 4⟩

/-- A write by the queue manager: the frames it touches are given USED and DIRTY (R312). -/
def Dev.qmWrite (d : Dev) (a : Nat) (bs : List Byte) : Dev := (d.touch a bs.length true).writeBytes a (clean bs)

/-- A port's settings. -/
def Dev.portCfg (d : Dev) (p : Nat) : PortCfg := SMap.get (fun _ => PortCfg.reset) d.tt.ports p

/-- The largest UDP payload on a port (R44). -/
def Dev.maxUdp (d : Dev) (p : Nat) (v6 tagged : Bool) : Nat :=
  (d.portCfg p).maxFrame - 18 - (if tagged then 4 else 0) - (if v6 then 40 else 20) - 8

/-- Credit used by a source on a port, and the credit left (R50). -/
def Dev.creditUsed (d : Dev) (source port : Nat) : Nat := SMap.get (fun _ => 0) d.hub.used (8 * source + port)
def Dev.setCreditUsed (d : Dev) (source port n : Nat) : Dev :=
  d.withHub (fun h => { h with used := SMap.set (fun _ => 0) h.used (8 * source + port) n })
/-- The allotment of a source; 0 for a source that is not enabled (R50, R474). -/
def Dev.allotment (d : Dev) (source : Nat) : Nat := SMap.get (fun _ => 0) d.tt.sources source
def Dev.credit (d : Dev) (source port : Nat) : Nat := d.allotment source - d.creditUsed source port

/-- The transport header with its CHECK over header and body (R42). -/
def wtHeader (typ source count credit : Nat) (body : List Byte) : List Byte :=
  let h := fun c => leBytes 2 0x5457 ++ leBytes 1 1 ++ leBytes 1 typ ++ leBytes 2 source ++ leBytes 2 count
    ++ leBytes 4 credit ++ leBytes 4 c
  h (crc32c (h 0 ++ body))

/-- The source's MAC address and VLAN on a port (R45). -/
def Dev.peer (d : Dev) (r : Reply) : Option Peer :=
  d.hub.peers.find? (fun p => decide (p.source = r.source ∧ p.port = r.port ∧ p.ip = r.ip ∧ p.udp = r.udp))

/-- The most recent frame of a source's address on a port (R45). -/
def Dev.notePeer (d : Dev) (p : Peer) : Dev :=
  d.withHub (fun h => { h with peers := p :: h.peers.filter (fun x => !decide (x.source = p.source ∧ x.port = p.port ∧ x.ip = p.ip ∧ x.udp = p.udp)) })

/-- A datagram to a source leaves through its port (R42, R45, R51, R56): it carries the credit current now. -/
def Dev.sendWt (d : Dev) (r : Reply) (typ source count : Nat) (body : List Byte) : Dev :=
  let m : Nat × Option Nat := match d.peer r with | some p => (p.mac, p.vlan) | none => (0, none)
  d.say (.udp r.port m.1 m.2 r.v6 r.ip r.udp r.ourIp r.ourUdp
    (wtHeader typ source count (d.credit source r.port) body ++ body))

/-- The egress acknowledgement queue of a port that takes a source's acknowledgements (R65). DESIGN CHOICE, assumption 31. -/
def egressQueue (r : Reply) (source : Nat) : Nat := 4096 + 8 * r.port + source % 8

/-- The queue an acknowledgement enters, if its door has one (R56, R75). -/
def ackQueue (door : Door) (a : Ack) : Option Nat :=
  match door with
  | .eth r => some (egressQueue r a.source)
  | .host c f s => some (hostQueue c f (16 + s % 8))
  | .ring _ => none

/-- Whether the queue of an acknowledgement has room: an egress queue that is full, or a host queue that is full or not enabled,
has none (R57, R70, R75). An egress queue that the Timetable leaves unused is never full. DESIGN CHOICE, assumption 115. -/
def Dev.ackRoom (d : Dev) (door : Door) (a : Ack) : Bool :=
  match door, ackQueue door a with
  | .eth _, some q => decide ((d.queue q).kind ≠ 2) || !(d.queue q).full
  | .host .., some q => (d.queue q).serves 5 && !(d.queue q).full
  | _, _ => true

/-- Send a full or expired ACKS datagram (R56): its entries leave their egress queue; one that carries poison is ended with an
inverted FCS (R419). -/
def Dev.sendDgram (d : Dev) (g : Dgram) : Dev :=
  let x := d.queue g.queue
  let n := g.acks.length
  let cells := if x.kind = 2 then ((List.range n).map (fun i => d.readBytes (x.base + 16 * ((x.head + i) % x.size)) 16)).flatten else []
  let d := d.withHub (fun h => { h with dgrams := h.dgrams.filter (fun y => !decide (y = g)) })
  let d := if x.kind = 2 then d.setQueue g.queue { x with head := (x.head + n) % 2 ^ 32 } else d
  if anyPoison cells then (d.agentPoison (x.base + 16 * (x.head % x.size))).count (rEthPoison g.reply.port) 0 32
  else d.sendWt g.reply 2 g.source n ((g.acks.map ackBytes).flatten)

/-- Epoch `a` comes before epoch `b`, by the low 32 bits that an acknowledgement carries. -/
def earlier (a b : Nat) : Bool := decide (a ≠ b ∧ (b + 2 ^ 32 - a) % 2 ^ 32 < 2 ^ 31)

/-- The other datagrams of a port that hold a COMMITTED of an earlier epoch leave before a COMMITTED of epoch `e` joins the datagram of `source` and
`r` (R64). DEDUCED, assumption 126. -/
def Dev.flushOlder (d : Dev) (r : Reply) (source e : Nat) : Dev :=
  (d.hub.dgrams.filter (fun g => decide (g.reply.port = r.port ∧ ¬ (g.source = source ∧ g.reply = r))
    && g.acks.any (fun a => decide (a.kind = 2) && earlier a.epoch e))).foldl Dev.sendDgram d

/-- An acknowledgement joins the ACKS datagram of its source and address (R56): a full one leaves at once. The datagram's SOURCE is the waybill's.
DESIGN CHOICE, assumptions 115 and 116. -/
def Dev.joinDgram (d : Dev) (r : Reply) (a : Ack) : Dev :=
  let d := if a.kind = 2 then d.flushOlder r a.source (a.epoch % 2 ^ 32) else d
  let q := egressQueue r a.source
  let x := d.queue q
  let d := if x.kind = 2 then
      let d := (d.qmWrite (x.base + 16 * (x.tail % x.size)) (ackBytes a)).setQueue q { x with tail := (x.tail + 1) % 2 ^ 32 }
      if crossed x.mark x.occ (x.occ + 1) then d.edge x.vector else d
    else d
  let old := d.hub.dgrams.find? (fun g => decide (g.source = a.source ∧ g.reply = r))
  let g : Dgram := match old with
    | some g => { g with acks := g.acks ++ [a] }
    | none => ⟨a.source, r, q, [a]⟩
  let d := d.withHub (fun h => { h with dgrams :=
    match old with
    | some o => h.dgrams.map (fun y => if y = o then g else y)
    | none => h.dgrams ++ [g] })
  let tagged := match d.peer r with | some p => p.vlan.isSome | none => false
  if d.maxUdp r.port r.v6 tagged < 16 + 16 * (g.acks.length + 1) then d.sendDgram g else d

/-- An acknowledgement with room goes out through its door (R56, R75, R374). -/
def Dev.putAck (d : Dev) (door : Door) (a : Ack) : Dev :=
  match door with
  | .eth r => d.joinDgram r a
  | .host c f s => d.hostPut (hostQueue c f (16 + s % 8)) (clean (ackBytes a))
  | .ring hdr => d.sendFrame false (d.newFrame 6 0 0 [padTo 64
      (hdr.take 4 ++ leBytes 1 d.tt.ringId ++ (hdr.drop 4).take 1 ++ leBytes 10 0 ++ ackBytes a)])

/-- An acknowledgement that the device has made: it is never discarded, and keeps its order behind those that wait for the same
queue (R57, R64). -/
def Dev.ack (d : Dev) (door : Door) (a : Ack) : Dev :=
  let behind := d.hub.ackWait.any (fun w => decide (ackQueue w.1 w.2 = ackQueue door a ∧ (ackQueue door a).isSome))
  if behind || !d.ackRoom door a then d.withHub (fun h => { h with ackWait := h.ackWait ++ [(door, a)] })
  else d.putAck door a

/-- Acknowledgements that wait for space are put, oldest first (R57). -/
def Dev.drainAcks (d : Dev) : Dev :=
  let w := d.hub.ackWait
  w.foldl (fun d x => d.ack x.1 x.2) (d.withHub (fun h => { h with ackWait := [] }))

/-- The duplicate window of a source (R37), and the device with it changed. -/
def Dev.win (d : Dev) (source : Nat) : Win := SMap.get (fun _ => Win.reset) d.hub.wins source
def Dev.setWin (d : Dev) (source : Nat) (w : Win) : Dev :=
  d.withHub (fun h => { h with wins := SMap.set (fun _ => Win.reset) h.wins source w })

/-- The seen bit of a sequence in a window: 0 clear, 1 set, 2 set by a journal entry. -/
def Win.bit (w : Win) (s : Nat) : Nat := SMap.get (fun _ => 0) w.seen s
/-- A seen bit written; H rises to a newer sequence and bits below the new window are discarded (R37). -/
def Win.put (w : Win) (s v : Nat) : Win :=
  let h := if w.h < s then s else w.h
  { h := h, seen := (SMap.set (fun _ => 0) w.seen s v).filter (fun p => decide (h < p.1 + 65536)) }
/-- Two windows of one source merged (R377, R388): bits ORed, H the larger. -/
def Win.merge (a b : Win) : Win :=
  let m := b.seen.foldl (fun w p => if w.bit p.1 < p.2 then { w with seen := SMap.set (fun _ => 0) w.seen p.1 p.2 } else w) a
  let h := if a.h < b.h then b.h else a.h
  { h := h, seen := m.seen.filter (fun p => decide (h < p.1 + 65536)) }

/-- How an arriving sequence is judged (R37). -/
inductive Judged
  | new | duplicate | stale
  deriving DecidableEq, Repr

def Win.judge (w : Win) (s : Nat) : Judged :=
  if w.h < s then .new
  else if s + 65535 < w.h then .stale
  else if w.bit s = 0 then .new else .duplicate

/-- The seen bit of a record is cleared (R38, R60). -/
def Dev.clearSeen (d : Dev) (source seq : Nat) : Dev :=
  let w := d.win source
  d.setWin source { w with seen := SMap.set (fun _ => 0) w.seen seq 0 }

/-- A record by the number the device knows it by, and the device with records changed. -/
def Dev.recOf (d : Dev) (i : Nat) : Option Rec := d.hub.recs.find? (fun r => r.id == i)
def Dev.mapRec (d : Dev) (i : Nat) (f : Rec → Rec) : Dev :=
  d.withHub (fun h => { h with recs := h.recs.map (fun r => if r.id = i then f r else r) })
def Dev.dropRec (d : Dev) (i : Nat) : Dev := d.withHub (fun h => { h with recs := h.recs.filter (fun r => r.id ≠ i) })

/-- The place in the record buffer of a record that still occupies it (R571): until its consist is released. -/
def Rec.inBuffer (r : Rec) : Bool := match r.place with | .posted _ => false | _ => true

/-- Whether `n` bytes at `a` are free in the record buffer. -/
def Dev.bufferFree (d : Dev) (a n : Nat) : Bool :=
  decide (a % 8 = 0 ∧ Config.recBase ≤ a ∧ a + n ≤ Config.recBase + 0x400000)
  && d.hub.recs.all (fun r => !r.inBuffer || decide (a + n ≤ r.addr ∨ r.addr + r.len ≤ a))

/-- Where a record of `n` bytes goes in the record buffer (R76, R571): a free place that the spec does not choose; none when
there is no room. DESIGN CHOICE, assumption 8. -/
def Dev.bufferPlace (d : Dev) (n : Nat) : Option Nat × Dev :=
  let pick := Config.recBase + 8 * (d.draw.1.toNat % 0x80000)
  let d' := d.draw.2
  if d.bufferFree pick n then (some pick, d')
  else
    let ends := Config.recBase :: (d.hub.recs.filter Rec.inBuffer).map (fun r => (r.addr + r.len + 7) / 8 * 8)
    (ends.find? (fun a => d.bufferFree a n), d')

/-- The slots of record queue `q` in use (R68). -/
def Dev.usedSlots (d : Dev) (q : Nat) : List Nat :=
  d.hub.recs.filterMap (fun r => match r.place with | .queue q' s => if q' = q then some s else none | _ => none)

/-- A free slot of record queue `q` (R68): the queue manager chooses it, and the spec does not say which. -/
def Dev.slotPlace (d : Dev) (q : Nat) : Option Nat × Dev :=
  let used := d.usedSlots q
  let n := (d.queue q).size
  let pick := d.draw.1.toNat % n
  if used.contains pick then ((List.range n).find? (fun s => !used.contains s), d.draw.2) else (some pick, d.draw.2)

/-- PATH, FUNC and RING of a record's queue entry (R76). -/
def Dev.pathOf (d : Dev) : Door → Nat × Nat × Nat
  | .eth r => (r.port, 0, d.tt.ringId)
  | .host c f _ => (8 + c, f, d.tt.ringId)
  | .ring hdr => (10, 0, (hdr.getD 4 0).toNat)

/-- The 64-byte record queue entry of a record (R76). -/
def Dev.entryBytes (d : Dev) (r : Rec) : List Byte :=
  let p := d.pathOf r.door
  vals (d.readBytes r.addr 32) ++ leBytes 8 r.addr ++ leBytes 8 r.arrival ++ leBytes 1 p.1 ++ leBytes 1 p.2.1
  ++ leBytes 1 p.2.2 ++ leBytes 13 0

/-- The address of a slot of a record queue (R67). -/
def Dev.slotAddr (d : Dev) (q s : Nat) : Nat := (d.queue q).base + 64 * s

/-- A record takes a slot of record queue `q` (R68, R76); unchanged when there is none. -/
def Dev.enqueueRec (d : Dev) (r : Rec) (q : Nat) : Dev :=
  match d.slotPlace q with
  | (none, _) => d
  | (some s, d) =>
    let x := d.queue q
    let d := (d.qmWrite (d.slotAddr q s) (d.entryBytes r)).setQueue q { x with tail := (x.tail + 1) % 2 ^ 32 }
    d.mapRec r.id (fun r => { r with place := .queue q s })

/-- A record leaves its record queue (R68). -/
def Dev.dequeueRec (d : Dev) (r : Rec) : Dev :=
  match r.place with
  | .queue q _ => let x := d.queue q; d.setQueue q { x with head := (x.head + 1) % 2 ^ 32 }
  | _ => d

end Sys2Proof.Machine
end

