-- ==== Sys2Proof/Machine/Journal.lean ====
section
/-! DEFINITION. The journal (chapter 11): entries, seals, the digest chain, the buffer, commitment and delivery to host queues. -/
namespace Sys2Proof.Machine

open Sys2Proof

/-- SipHash-2-4 of an account under the Timetable's key, its track (R79). -/
def Dev.acctHash (d : Dev) (a : Word) : Word := sipHash8 d.tt.hashKey a
def Dev.trackOf (d : Dev) (a : Word) : Nat := fld (d.acctHash a) 0 16
/-- HASHID (R80). -/
def Dev.hashId (d : Dev) : List Byte := shake256 d.tt.hashKey
/-- D_0 of member `i` (R351). DEDUCED, assumption 49. -/
def Dev.digest0 (d : Dev) (i : Nat) : List Byte :=
  shake256 ("KAMROV-JNL".toList.map (fun c => BitVec.ofNat 8 c.toNat) ++ leBytes 1 i ++ d.hashId)

/-- Units in the part of the buffer that is open to entries, and in the reserve (R355). -/
def Jnl.openUsed (j : Jnl) : Nat := (j.units.filter (fun u => !u.reserve)).length
def Jnl.reserveUsed (j : Jnl) : Nat := (j.units.filter (fun u => u.reserve)).length
/-- The part open to entries has room; a unit for a seal, commit notice or signature is free (R355). DEDUCED, assumption 35. -/
def Jnl.entryRoom (j : Jnl) : Bool := decide (j.openUsed < 261120)
def Jnl.unitRoom (j : Jnl) : Bool := j.entryRoom || decide (j.reserveUsed < 1024)

/-- The selection word of a journal queue (R354). -/
def Dev.sel (d : Dev) (q : Nat) : Nat := SMap.get (fun _ => 0) d.jnl.sels q
def selBit (w i : Nat) : Bool := w.testBit i
def selSrc (w : Nat) : Nat := w / 16 % 4

/-- Whether selection word `w` chooses a unit of source `src` (R354). -/
def Dev.selects (d : Dev) (w src : Nat) (u : JUnit) : Bool :=
  selBit w 0 && decide (selSrc w = src) &&
  (if u.kind = 0 then
    let p := w / 256 % 16
    decide (d.trackOf (word (ofLe ((u.bytes.drop 8).take 8))) % 2 ^ p = w / 65536 % 256 % 2 ^ p)
  else if u.kind = 1 then true
  else if u.kind = 2 then !selBit w 1
  else selBit w 3)

/-- The journal queues with a selection (R354). -/
def Dev.jqueues (d : Dev) : List Nat := d.jnl.sels.map (fun p => p.1)

/-- A unit enters the buffer (R355): in the open part while it has room, else in the reserve; and the East stream where it is
sent there (R371). A buffer that is now full for entries sets BUF_FULL. -/
def Dev.addUnit (d : Dev) (kind seq epoch : Nat) (bs : List Byte) : Dev :=
  let i := d.jnl.nextId
  let d := d.withJnl (fun j => { j with
    units := j.units ++ [⟨i, kind, seq, epoch, bs, false, [], [], !j.entryRoom, false⟩], nextId := i + 1 })
  let d := if d.jnl.entryRoom then d else d.setRb rJnlErr 0 true
  if kind = 3 then d else d.withRing (fun r => { r with stream := r.stream ++ [⟨epoch, false, .unit i⟩] })

/-- A unit is delivered into a host queue (R70, R343, R354). -/
def Dev.deliverUnit (d : Dev) (q : Nat) (u : JUnit) : Dev := d.hostPut q (clean u.bytes)

/-- A unit is skipped for a lossy queue (R354). -/
def Dev.skipUnit (d : Dev) : Dev := (d.count rJnlErr 32 32).setRb rJnlErr 1 true

/-- Whether a host journal queue can take a unit now. -/
def Dev.queueTakes (d : Dev) (q : Nat) : Bool := (d.queue q).serves 3 && !(d.queue q).full

/-- Whether the epoch of a unit of this device's journal is committed (R352). -/
def Dev.unitCommitted (d : Dev) (u : JUnit) : Bool := decide (u.epoch ≤ d.jnl.committed)

/-- Queue `q` has taken a unit, or skipped it. -/
def JUnit.had (u : JUnit) (q : Nat) : Bool := u.taken.contains q || u.skipped.contains q

/-- Whether a unit may leave the buffer (R355). -/
def Dev.unitDone (d : Dev) (u : JUnit) : Bool :=
  let must := d.jqueues.filter (fun q => d.selects (d.sel q) 0 u)
  let lossless := must.filter (fun q => !selBit (d.sel q) 2)
  lossless.all (fun q => u.taken.contains q) &&
  (if u.kind = 3 then !lossless.isEmpty || must.all u.had
  else u.sent && (decide (u.kind = 2) || d.unitCommitted u))

/-- Queue `q` has taken or skipped the unit numbered `i`. -/
def Dev.noteTaken (d : Dev) (q i : Nat) (own skip : Bool) : Dev :=
  let f := fun (u : JUnit) => if u.id = i then (if skip then { u with skipped := u.skipped ++ [q] } else { u with taken := u.taken ++ [q] }) else u
  if own then d.withJnl (fun j => { j with units := j.units.map f })
  else d.withJnl (fun j => { j with preds := (j.preds.map (fun p => { p with unit := f p.unit })).filter (fun p =>
    !(d.jqueues.filter (fun q' => d.selects (d.sel q') p.src p.unit)).all p.unit.had) })

/-- A unit offered to a lossy queue now: it takes it or skips it (R354). -/
def Dev.offer (d : Dev) (q : Nat) (u : JUnit) : Dev :=
  if d.queueTakes q then (d.deliverUnit q u).noteTaken q u.id true false else d.skipUnit.noteTaken q u.id true true

/-- A lossy queue that has not taken a unit which leaves the buffer takes it now or skips it, after the units before it (R354, R64). DEDUCED,
assumption 34. -/
def Dev.lastOffer (d : Dev) (u : JUnit) : Dev :=
  (d.jqueues.filter (fun q => d.selects (d.sel q) 0 u && selBit (d.sel q) 2)).foldl (fun d q =>
    (d.jnl.units.filter (fun v => decide (v.id ≤ u.id) && d.selects (d.sel q) 0 v && !v.had q)).foldl (fun d v => d.offer q v) d) d

/-- What an entry records beside its sequence (R341). -/
structure EntryIn where
  acct : Nat
  amount : Int
  newbal : Int
  ref : Nat
  cls : Nat
  g : Nat
  user : Nat
  marker : Bool
  kern : Bool
  rel : Bool
  deriving DecidableEq, Repr

/-- A journal entry's 64 bytes (R341). -/
def entryUnit (seq : Nat) (e : EntryIn) : List Byte :=
  let h := leBytes 8 seq ++ leBytes 8 e.acct ++ packedBytes 16 e.amount ++ packedBytes 16 e.newbal ++ leBytes 8 e.ref
    ++ leBytes 4 (e.cls % 2 ^ 12 + e.g % 2 ^ 12 * 2 ^ 12 + e.user % 16 * 2 ^ 24 + e.marker.toNat * 2 ^ 28
      + e.kern.toNat * 2 ^ 29 + e.rel.toNat * 2 ^ 30)
  h ++ leBytes 4 (crc32c h)

/-- The handing member's copy West of an entry for an account of the joiner's home tracks (R391). -/
def Dev.handCopy (d : Dev) (acct : Nat) (typ : Nat) (us : List (List Byte)) : Dev :=
  match d.ring.handing with
  | some h =>
    if (SMap.get (fun _ => Track.reset) d.yard.tracks (d.trackOf (word acct))).home0 = h.joiner then
      d.sendFrame false (d.newFrame typ 0 (if typ = 1 then d.ring.fmtcur else 0) us)
    else d
  | none => d

/-- An entry takes the next sequence and enters the buffer (R340, R341). -/
def Dev.appendEntry (d : Dev) (e : EntryIn) : Dev :=
  let s := d.jnl.next
  let bs := entryUnit s e
  let d := d.addUnit 0 s d.jnl.epoch bs
  let d := d.withJnl (fun j => { j with
    next := (s + 1) % 2 ^ 62, lastEntry := s, count := j.count + 1, first := if j.count = 0 then s else j.first })
  let d := if e.kern then d
    else
      let w := d.win (e.ref % 2 ^ 16)
      if w.bit (e.ref / 2 ^ 16) = 1 then d.setWin (e.ref % 2 ^ 16) { w with seen := SMap.set (fun _ => 0) w.seen (e.ref / 2 ^ 16) 2 }
      else d
  d.handCopy e.acct 1 [bs]

/-- A marker entry takes its sequence (R342). -/
def Dev.appendMarker (d : Dev) (m : Marker) : Dev :=
  let d := d.appendEntry ⟨m.acct, 0, 0, m.ref, m.cls, m.g, 0, true, false, false⟩
  d.mapRec m.recId (fun r => { r with last := d.jnl.epoch })

/-- The commit epoch of a released record (R24). -/
def Rec.commitEpoch (r : Rec) : Nat :=
  match r.place with
  | .posted e => if e < r.last then r.last else e
  | _ => r.last

/-- The COMMITTED acknowledgements of the epochs up to `e`, in the order of their commit epochs (R55, R64). -/
def Dev.ackCommitted (d : Dev) (e : Nat) : Dev :=
  let due := d.hub.recs.filter (fun r => (match r.place with | .posted _ => true | _ => false) && r.owed.isNone && decide (r.commitEpoch ≤ e))
  let due := sorted (fun a b => decide (a.commitEpoch ≤ b.commitEpoch)) due
  due.foldl (fun d r => (d.ack r.door ⟨2, 0, r.source, r.seq, some d.tt.ringId, r.commitEpoch⟩).dropRec r.id) d

/-- Waiting markers take sequences while the buffer is open to entries (R355); a consist whose markers all have one has its POSTED
acknowledgements sent (R338), and the COMMITTED ones where the epoch is committed by now (R55). -/
def Dev.settleMarkers (d : Dev) : Dev :=
  let d := d.hub.markers.foldl (fun d m =>
    if d.jnl.entryRoom then
      (d.withHub (fun h => { h with markers := h.markers.filter (fun x => x.recId ≠ m.recId) })).appendMarker m
    else d.setRb rJnlErr 0 true) d
  let free := fun (r : Rec) => match r.owed with
    | some k => !d.hub.markers.any (fun m => m.group == k)
    | none => false
  let due := d.hub.recs.filter free
  let d := due.foldl (fun d r =>
    let d := d.mapRec r.id (fun r => { r with owed := none })
    if r.quiet && d.rb rQmWtCtl 28 then d else d.ack r.door ⟨1, 0, r.source, r.seq, some d.tt.ringId, r.commitEpoch⟩) d
  if due.isEmpty then d else d.ackCommitted d.jnl.committed

/-- Units that may leave the buffer do (R355); commit notices that waited for one take them, and then the markers that wait. -/
def Dev.purge (d : Dev) : Dev :=
  let gone := d.jnl.units.filter d.unitDone
  let d := gone.foldl Dev.lastOffer d
  let d := d.withJnl (fun j => { j with units := j.units.filter (fun u => !gone.any (fun v => v.id == u.id)) })
  let d := d.jnl.notices.foldl (fun d bs =>
    if d.jnl.unitRoom then
      (d.withJnl (fun j => { j with notices := j.notices.drop 1 })).addUnit 2 (ofLe (bs.take 8) % 2 ^ 62) (ofLe ((bs.drop 8).take 8)) bs
    else d) d
  if d.hub.markers.isEmpty then d else d.settleMarkers.pumpEast

/-- Bytes 0-31 of a seal (R348). -/
def Dev.sealHead (d : Dev) (seq epoch first count run : Nat) : List Byte :=
  leBytes 8 (seq % 2 ^ 62 + 2 ^ 62) ++ leBytes 8 epoch ++ leBytes 8 first ++ leBytes 4 count ++ leBytes 1 d.tt.ringId
  ++ leBytes 1 d.ring.fmtcur ++ leBytes 2 run

/-- Entries of the open epoch, in ascending sequence (R349). -/
def Dev.openEntries (d : Dev) : List Byte :=
  ((d.jnl.units.filter (fun u => decide (u.kind = 0 ∧ u.epoch = d.jnl.epoch))).map (fun u => u.bytes)).flatten

/-- The most recent seal, where the closing epoch may extend it (R350). -/
def Dev.runSeal (d : Dev) : Option JUnit :=
  match (d.jnl.units.filter (fun u => u.kind == 1)).getLast? with
  | none => none
  | some u =>
    let count := ofLe ((u.bytes.drop 24).take 4)
    let run := ofLe ((u.bytes.drop 30).take 2)
    if count = 0 ∧ run < 65535 ∧ !u.sent ∧ u.taken.isEmpty ∧ !u.signed then some u else none

/-- Sealed epochs that are not committed (R360): a run seal covers RUNLEN + 1 epochs (R350). -/
def Jnl.openSeals (j : Jnl) : Nat :=
  ((j.units.filter (fun u => decide (u.kind = 1 ∧ j.committed < u.epoch))).map (fun u => ofLe ((u.bytes.drop 30).take 2) + 1)).sum

/-- Uncommitted epochs are discarded (R351, R381): their units leave, and the chain stands after its last committed seal. -/
def Dev.discardOpen (d : Dev) : Dev :=
  let keep := d.jnl.units.filter (fun u => decide (u.epoch ≤ d.jnl.committed) || decide (u.kind = 3))
  (d.withJnl (fun j => { j with units := keep, count := 0, acks := [], signing := none })).withRing
    (fun r => { r with seeding := [], seed := none, stream := r.stream.filter (fun it => match it.body with
      | .unit i => keep.any (fun u => u.id == i)
      | .state _ => false) })

/-- The tracks cease to be owned when the device leaves MEMBER for OUT or FENCED: see `Dev.dropTracks` of the Yard; here only the
ring state changes (R382). -/
def Dev.setRState (d : Dev) (s : RState) : Dev :=
  if d.ring.state = s then d else (d.withRing (fun r => { r with state := s })).memberEdge d.tt.ringId

/-- The seal of the first epoch that closes at or after a period mark is signed (R353). -/
def Dev.markSeal (d : Dev) (sl : List Byte) : Dev :=
  if d.jnl.markDue && d.jnl.signing.isNone then
    d.withJnl (fun j => { j with
      markDue := false, signing := some sl, units := j.units.map (fun u => if u.bytes = sl then { u with signed := true } else u) })
  else d

/-- The closing epoch's seal (R348-R350, R355), with the digest chained; none when there is no unit for it. -/
def Dev.makeSeal (d : Dev) : Option Dev :=
  let j := d.jnl
  match (if j.count = 0 then d.runSeal else none) with
  | some u =>
    let run := ofLe ((u.bytes.drop 30).take 2) + 1
    let head := d.sealHead u.seq j.epoch u.seq 0 run
    let dg := shake256 (j.digest ++ head)
    let d := d.withJnl (fun j => { j with digest := dg, units := j.units.map (fun v =>
      if v.id = u.id then { v with epoch := j.epoch, bytes := head ++ dg } else v) })
    let d := d.withRing (fun r => { r with stream := r.stream.map (fun it => if it.body = .unit u.id then { it with epoch := j.epoch } else it) })
    some (d.markSeal (head ++ dg))
  | none =>
    if j.unitRoom then
      let s := j.next
      let head := d.sealHead s j.epoch (if j.count = 0 then s else j.first) j.count 0
      let dg := shake256 (j.digest ++ d.openEntries ++ head)
      let d := d.addUnit 1 s j.epoch (head ++ dg)
      some ((d.withJnl (fun j => { j with digest := dg, next := (s + 1) % 2 ^ 62 })).markSeal (head ++ dg))
    else none

/-- A commit notice (R352). -/
def commitNotice (seq epoch : Nat) : List Byte := leBytes 8 (seq % 2 ^ 62 + 2 * 2 ^ 62) ++ leBytes 8 epoch ++ leBytes 48 0

/-- Whether the holders that the device needs have acknowledged the seal of epoch `e` (R352, R365, R375). -/
def Dev.ackedBy (d : Dev) (e : Nat) : Bool :=
  let hs := d.holders d.tt.ringId
  !hs.isEmpty && (List.range hs.length).all (fun i =>
    d.jnl.acks.any (fun a => decide (a.epoch = e ∧ a.rank = i + 1 ∧ some a.holder = hs[i]?)))

/-- Epoch `e`, sealed by unit `u`, becomes committed (R352). -/
def Dev.commitSeal (d : Dev) (u : JUnit) : Dev :=
  let d := d.withJnl (fun j => { j with committed := u.epoch, lastSeal := u.bytes, acks := j.acks.filter (fun a => decide (u.epoch < a.epoch)) })
  let d := d.trimStream.ackCommitted u.epoch
  let bs := commitNotice u.seq u.epoch
  let d := if d.jnl.unitRoom && d.jnl.notices.isEmpty then d.addUnit 2 u.seq u.epoch bs
    else d.withJnl (fun j => { j with notices := j.notices ++ [bs] })
  let d := match d.ring.lupd with
    | some e => if e ≤ u.epoch then ((d.withRing (fun r => { r with lupd := none })).setRb rLlLupd 50 true).edge 50 else d
    | none => d
  match d.ring.seed with
  | some e => if e ≤ u.epoch then d.withRing (fun r => { r with seed := none }) else d
  | none => d

/-- Every epoch that is due is committed, oldest first (R352, R375). -/
def Dev.tryCommit (d : Dev) : Dev :=
  let d := (d.jnl.units.filter (fun u => decide (u.kind = 1 ∧ d.jnl.committed < u.epoch))).foldl (fun st u =>
    if st.2 && st.1.ackedBy u.epoch then (st.1.commitSeal u, true) else (st.1, false)) (d, true) |>.1
  d.pumpEast.purge

/-- The first unit that a journal queue has not taken and selects (R354): this device's own, or a predecessor's. -/
def Dev.nextFor (d : Dev) (q : Nat) : Option (JUnit × Bool) :=
  let w := d.sel q
  if selSrc w = 0 then
    (d.jnl.units.find? (fun u => d.selects w 0 u && !u.had q)).map
      (fun u => (u, decide (u.kind = 3) || !selBit w 1 || d.unitCommitted u))
  else
    (d.jnl.preds.find? (fun p => decide (p.src = selSrc w) && d.selects w p.src p.unit && !p.unit.had q)).map
      (fun p => (p.unit, !selBit w 1 || p.committed))

/-- Delivery of the next unit into a journal queue (R354): a full lossy queue skips it; a full queue that is not lossy makes it wait. -/
def Dev.deliver (d : Dev) (q : Nat) : Dev :=
  match d.nextFor q with
  | none => d
  | some (u, ready) =>
    let own := decide (selSrc (d.sel q) = 0)
    if !ready then d
    else if d.queueTakes q then ((d.deliverUnit q u).noteTaken q u.id own false).purge
    else if selBit (d.sel q) 2 && (d.queue q).full then (d.skipUnit.noteTaken q u.id own true).purge
    else d

end Sys2Proof.Machine
end

