-- ==== Sys2Proof/Machine/Memory.lean ====
section
/-! DEFINITION. Atomics, FENCE, LDM and STM (R138, R258, R320), the drain of the store buffer (R316), and the arrival, grant and loss of
HBM lines in a cluster store (R302, R316, R319). -/
namespace Sys2Proof.Machine

open Sys2Proof

/-- The payload of a remote store into a code store (R495): the bytes stored, in 32, and the 64-bit mask of where they lie in
the line. DEDUCED, assumption 52. -/
def remotePayload (a : Nat) (bs : List PByte) : List Byte :=
  let mask := ((List.range bs.length).map (fun i => 2 ^ (a % 64 + i))).sum % 2 ^ 64
  padTo 32 (bs.map (fun b => if b.poison then 0 else b.val)) ++ leBytes 16 mask

/-- A write that becomes visible: by an agent of cluster `c`; a code store's line leaves the branch-target buffers (R155). -/
def Dev.visibleWrite (d : Dev) (c a : Nat) (bs : List PByte) : Dev :=
  let d := d.clusterWrite c a bs
  match d.region a with
  | .code n =>
    let d := if n = c then d else d.capture n 0x0B 0x7F 0 (a / 64 * 64) (remotePayload a bs)
    d.btbDrop n (a / 64)
  | _ => d

/-- What an atomic makes of its operand: the new contents of memory (none: unchanged), whether their value is unspecified (`open_`), whether the
operation poisons rd and FL (`bad`), and for ACAS Z. -/
structure AtomicOut where
  new : Option Reg
  open_ : Bool
  bad : Bool
  z : Option Bool
  deriving DecidableEq, Repr

/-- A register's low `8 * n` bits. -/
def lowBits (n : Nat) (r : Reg) : Reg := ⟨word (r.val.toNat % 2 ^ (8 * n)), r.poison⟩

/-- An atomic (R258, R321): decoding, base, alignment, the check in the Store column, then read and write as one. An HBM operand needs
its line held writable in the cluster store, else the atomic waits for the line. `f` takes the operand. -/
def atomic (rd ra : GReg) (sz : BitVec 2) (f : Ctx → Nat → Reg → AtomicOut) (c : Ctx) : Run Out :=
  if sz.toNat < 2 then illegal c 2 0x12
  else
    let n := sizeOf2 sz
    match c.base ra with
    | .error e => .error e
    | .ok b =>
      let a := b.toNat
      if a % n ≠ 0 then raise c 4 2 a
      else if !c.t.sb.isEmpty then .error .wait
      else match c.check .atomic a n with
        | .error e => .error e
        | .ok c =>
          if a < Config.hbmEnd ∧ !c.d.holdsWritable (clusterOf c.g) (a / 64) then .error .wait
          else match c.fetchBytes a n with
            | .error e => .error e
            | .ok (bs, c) =>
              let m := regOfBytes bs
              let o := f c n m
              let c := match o.new with
                | some v =>
                  let x := if o.open_ then c.d.draw else (v.val, c.d)
                  c.withD (x.2.visibleWrite (clusterOf c.g) a (regBytes n ⟨x.1, v.poison⟩))
                | none => c
              let c := if o.bad || m.poison then c.poisonR rd else c.setR rd m
              match o.z with
              | some b => seq4 (c.setZ b)
              | none => seq4 (if o.bad then c.poisonFl else c)

/-- AADD, AAND and AOR on operand `m` with `r`: a poisoned side is written back poisoned (R258), with an unspecified value. -/
def atomicArith (f : Word → Word → Word) (n : Nat) (m r : Reg) : AtomicOut :=
  ⟨some ⟨word ((f m.val r.val).toNat % 2 ^ (8 * n)), m.poison || r.poison⟩, m.poison || r.poison, false, none⟩

/-- AADD (R258). -/
def execAadd (g : Nat) (rd ra rb : GReg) (sz : BitVec 2) (s : State) : Host.Outcome State Fault Refusal :=
  runThread g s [rd, ra, rb] false (atomic rd ra sz (fun c n m => atomicArith (· + ·) n m (lowBits n (c.r rb))))
/-- AAND (R258). -/
def execAand (g : Nat) (rd ra rb : GReg) (sz : BitVec 2) (s : State) : Host.Outcome State Fault Refusal :=
  runThread g s [rd, ra, rb] false (atomic rd ra sz (fun c n m => atomicArith (· &&& ·) n m (lowBits n (c.r rb))))
/-- AOR (R258). -/
def execAor (g : Nat) (rd ra rb : GReg) (sz : BitVec 2) (s : State) : Host.Outcome State Fault Refusal :=
  runThread g s [rd, ra, rb] false (atomic rd ra sz (fun c n m => atomicArith (· ||| ·) n m (lowBits n (c.r rb))))
/-- ASWP (R258): memory receives rb with rb's own mark. -/
def execAswp (g : Nat) (rd ra rb : GReg) (sz : BitVec 2) (s : State) : Host.Outcome State Fault Refusal :=
  runThread g s [rd, ra, rb] false (atomic rd ra sz (fun c n _ => ⟨some (lowBits n (c.r rb)), false, false, none⟩))
/-- ACAS (R258): a poisoned rc or operand leaves memory unchanged, marks rd and poisons FL. -/
def execAcas (g : Nat) (rd ra rb rc : GReg) (sz : BitVec 2) (s : State) : Host.Outcome State Fault Refusal :=
  runThread g s [rd, ra, rb, rc] true (atomic rd ra sz (fun c n m =>
    let k := lowBits n (c.r rc)
    if k.poison || m.poison then ⟨none, false, true, none⟩
    else ⟨if m.val = k.val then some (lowBits n (c.r rb)) else none, false, false, some (decide (m.val = k.val))⟩))

/-- FENCE (R320): it does not issue until the store buffer is empty. -/
def execFence (g : Nat) (s : State) : Host.Outcome State Fault Refusal :=
  runThread g s [] false (fun c => if c.t.sb.isEmpty then seq4 c else .error .wait)

/-- The lowest set bit of a mask. -/
def lowestBit (m : BitVec 32) : Option Nat := (List.range 32).find? (fun i => m.getLsbD i)

/-- One register of a multiple transfer (R138). -/
def moveOne (isStore : Bool) (k a : Nat) (c : Ctx) : Run Ctx :=
  if isStore then c.store a (regBytes 8 (c.r (BitVec.ofNat 5 k)))
  else match c.load a 8 with
    | .error e => .error e
    | .ok (bs, c) => .ok (c.setR (BitVec.ofNat 5 k) (regOfBytes bs))

/-- Up to `n` transfers (R138-R140): the resume state is kept between them; a transfer that must wait ends the command there. -/
def moveMany (isStore first : Bool) : Nat → McState → Ctx → Run Out
  | n, m, c =>
    match lowestBit m.mask with
    | none => seq4 (c.withT { c.t with mc := none })
    | some k =>
      let c := c.withT { c.t with mc := some m }
      match n with
      | 0 => .ok (.stay c)
      | n + 1 =>
        match (if c.t.noHazard [BitVec.ofNat 5 k] false then moveOne isStore k m.addr.toNat c else .error .wait) with
        | .error .wait => if first then .error .wait else .ok (.stay c)
        | .error e => .error e
        | .ok c => moveMany isStore false n ⟨m.mask &&& ~~~(1#32 <<< k), m.addr + 8⟩ c

/-- LDM and STM (R138): base and mask are read once, and not again when a transfer is resumed (R140). -/
def multiple (isStore : Bool) (ra rb : GReg) (n : Nat) (c : Ctx) : Run Out :=
  match (c.d.thread c.g).mc with
  | some m => moveMany isStore true n m c
  | none =>
    match c.base ra with
    | .error e => .error e
    | .ok b => match c.base rb with
      | .error e => .error e
      | .ok m => moveMany isStore true n ⟨m.setWidth 32, b⟩ c

/-- LDM (R138). DESIGN CHOICE, assumption 17. -/
def execLdm (g : Nat) (ra rb : GReg) (n : Nat) (s : State) : Host.Outcome State Fault Refusal :=
  runThread g s [ra, rb] false (multiple false ra rb n)
/-- STM (R138). -/
def execStm (g : Nat) (ra rb : GReg) (n : Nat) (s : State) : Host.Outcome State Fault Refusal :=
  runThread g s [ra, rb] false (multiple true ra rb n)

/-- A byte of a key store window store applied at the key store (R308): dropped where the byte that stood there before the store (in `d0`) is
poisoned or its WORLD is no longer the writer's. -/
def Dev.keyByteApply (d0 : Dev) (world : Bool) (d : Dev) (a : Nat) (b : PByte) : Dev :=
  if (d0.readByte a).poison || (d0.byteAt a).getLsbD 3 != world then (d.count rKeyStatus 32 32).setRb rKeyStatus 0 true
  else
    let d := d.writeBytes a [b]
    (List.range 32).foldl (fun d c => d.capture c 0x0C 0x7F b.val.toNat (a - Config.keyBase) []) d

/-- The bytes of a window store, each judged as it stood before the store. -/
def Dev.keyBytesApply (d0 : Dev) (world : Bool) : Dev → Nat → List PByte → Dev
  | d, _, [] => d
  | d, a, b :: bs => d0.keyBytesApply world (d0.keyByteApply world d a b) (a + 1) bs

/-- A store-buffer entry becomes visible (R308, R316). -/
def Dev.drainEntry (d : Dev) (c : Nat) (e : StoreEntry) : Dev :=
  match d.region e.addr with
  | .keys => d.keyBytesApply e.world d e.addr e.data
  | _ => d.visibleWrite c e.addr e.data

/-- The drain of thread `g`'s oldest entry (R316): at once where its line is in the cluster store and writable, or needs no
directory; otherwise the directory is asked. -/
def Dev.drainOldest (d : Dev) (g : Nat) : Dev :=
  let t := d.thread g
  match t.sb with
  | [] => d
  | e :: rest =>
    if e.addr < Config.hbmEnd ∧ !d.holdsWritable (clusterOf g) (e.addr / 64) then
      d.setThread g { t with sb := { e with asked := true } :: rest }
    else ((d.lruHit (clusterOf g) e.addr e.data.length).drainEntry (clusterOf g) e).setThread g { t with sb := rest }

/-- Whether a cluster has power and is out of reset. -/
def Dev.clusterLive (d : Dev) (c : Nat) : Bool := (d.cluster c).released && !(d.cluster c).napping

/-- Every drain of cluster `c` that waits for line `l` goes on. -/
def Dev.drainAsked (d : Dev) (c l : Nat) : Dev :=
  (d.thr.filter (fun p => decide (clusterOf p.1 = c))).foldl (fun d p =>
    match (d.thread p.1).sb with
    | e :: _ => if e.asked && decide (e.addr / 64 = l) then d.drainOldest p.1 else d
    | [] => d) d

/-- A line's written bytes go back to HBM, which encodes them afresh (R414). -/
def Dev.writeBack (d : Dev) (x : CLine) : Dev :=
  if x.old.isSome then (d.healLine x.line true).count (rHbmWrlines (x.line % 4)) 0 64 else d

/-- Cluster `c` no longer holds line `l`; what it had written goes back. -/
def Dev.dropLine (d : Dev) (c l : Nat) : Dev :=
  let d := d.undoLine c l
  let x := d.cluster c
  let d := (x.lines.filter (fun y => y.line == l)).foldl Dev.writeBack
    (d.setCluster c { x with lines := x.lines.filter (fun y => y.line != l) })
  d

/-- Sets of the cache part of cluster `c` (R303). -/
def Dev.cacheSets (d : Dev) (c : Nat) : Nat := d.rf (rClSplit c) 8 14

/-- The line that a fill of line `l` displaces: the least recently used of its set when 16 ways are taken (R302). -/
def Dev.victim (d : Dev) (c l : Nat) : Option Nat :=
  let set := (d.cluster c).lines.filter (fun y => y.line % d.cacheSets c == l % d.cacheSets c && y.line != l)
  if 16 ≤ set.length then set.getLast?.map CLine.line else none

/-- A line enters the store of cluster `c` (R302): in the way it had, else in the lowest free way of its set. DESIGN CHOICE, assumption 16. -/
def Dev.installLine (d : Dev) (c l : Nat) (writable : Bool) (old : Option (List PByte)) : Dev :=
  let x := d.cluster c
  let used := (x.lines.filter (fun y => y.line % d.cacheSets c == l % d.cacheSets c && y.line != l)).map CLine.way
  let way := match x.lines.find? (fun y => y.line == l) with
    | some y => y.way
    | none => ((List.range 16).find? (fun w => !used.contains w)).getD 0
  let n : CLine := ⟨l, way, writable, old⟩
  let d := if x.lines.any (fun y => y.line == l) then d else d.undo c (d.posAddr c n) (clean (leBytes 64 0))
  let x := d.cluster c
  d.setCluster c { x with lines := n :: x.lines.filter (fun y => y.line != l) }

/-- Clusters other than `c` that hold line `l`, or hold it writable. -/
def Dev.heldElsewhere (d : Dev) (c l : Nat) (writableOnly : Bool) : Bool :=
  d.clu.any (fun p => p.1 != c && p.2.lines.any (fun x => x.line == l && (x.writable || !writableOnly)))

/-- LINE_FILL (R302, R316): an HBM line arrives in cluster `c`'s store, read from HBM where no other cluster holds it; the read finds the
upsets `ups`. The directory grants a writable copy only when no other cluster holds the line, and a readable one only when none
holds it writable (R319). DEDUCED, assumption 15. -/
def execLineFill (c line : Nat) (writable : Bool) (ups : List Upset) (s : State) : Host.Outcome State Fault Refusal :=
  onUnit (decide (c < Config.clusters)) s (fun d =>
    if d.clusterLive c && decide (64 * line < Config.hbmEnd) && decide (0 < d.cacheSets c)
        && !d.heldElsewhere c line (!writable) then
      let d := match d.victim c line with | some v => d.dropLine c v | none => d
      let held := d.cachedAny line
      let d := if held then d else (d.addUpsets (ups.filter (fun u => u.addr / 64 == line && decide (u.addr < Config.hbmEnd)))).hbmRead line false
      let d := if !held && decide (hbmDecode d line (d.hbmUps line) (d.lineMarked line) = .uncorrectable) then
        (List.range 8).foldl (fun d i => d.setMark (8 * line + i) true) d else d
      let old := (((d.cluster c).lines.find? (fun y => y.line == line)).map CLine.old).join
      let d := d.capture c 2 0x7F writable.toNat (64 * line) (linePayload (d.readBytes (64 * line) 64))
      (d.installLine c line writable old).drainAsked c line
    else d)

/-- WRITE_GRANT (R316): a line held readable becomes writable, no other cluster holding it, and the drain that waits goes on. -/
def execWriteGrant (c line : Nat) (s : State) : Host.Outcome State Fault Refusal :=
  onUnit (decide (c < Config.clusters)) s (fun d =>
    let x := d.cluster c
    if d.clusterLive c && x.lines.any (fun y => y.line == line) && !d.heldElsewhere c line false then
      let d := d.capture c 3 0x7F 0 (64 * line) []
      (d.setCluster c { x with lines := x.lines.map (fun y => if y.line = line then { y with writable := true } else y) }).drainAsked c line
    else d)

/-- LINE_INVALIDATION (R319): the directory takes a line from a cluster, or only its writable permission (`down`); what was written goes back. -/
def execLineInvalidation (c line : Nat) (down : Bool) (s : State) : Host.Outcome State Fault Refusal :=
  onUnit (decide (c < Config.clusters)) s (fun d =>
    let d := if d.clusterLive c then d.capture c 4 0x7F down.toNat (64 * line) [] else d
    if down then
      let x := d.cluster c
      (x.lines.filter (fun y => y.line == line)).foldl Dev.writeBack
        (d.setCluster c { x with lines := x.lines.map (fun y => if y.line = line then { y with writable := false, old := none } else y) })
    else d.dropLine c line)

/-- INSTRUCTION_LINE_FETCH (R154): a granted line of the thread's own code store, the line of its PC or the next, arrives in its
fetch buffer. -/
def execInstructionLineFetch (g line : Nat) (s : State) : Host.Outcome State Fault Refusal :=
  threadEvent g s (fun g d =>
    let t := d.thread g
    if d.clusterLive (clusterOf g) && decide (t.run = .running) && decide (d.region (64 * line) = .code (clusterOf g))
        && decide (line = t.pc.toNat / 64 ∨ line = t.pc.toNat / 64 + 1) then
      let d := match d.checkAccess (d.ctx g).who .fetch (64 * line) 64 with
        | none => d.touch (64 * line) 64 false
        | some _ => d
      (d.noteRead (64 * line) 64).setThread g { t with fetchLine := some ⟨line, d.readBytes (64 * line) 64⟩ }
    else d)

/-- MODE_CHANGE_COMMIT (R152): after the three instructions of the shadow, the pending change takes effect. -/
def execModeChangeCommit (g : Nat) (s : State) : Host.Outcome State Fault Refusal :=
  threadEvent g s (fun g d =>
    let t := d.thread g
    if t.commitDue then d.setThread g t.commitShadow else d)

end Sys2Proof.Machine
end

