-- ==== Sys2Proof/Machine/Yard.lean ====
section
/-! DEFINITION. The Marshalling Yard (chapter 3) and the account directory (R329, R330): acceptance, dispatch, release, planning, moves, the
migration log and snapshots. -/
namespace Sys2Proof.Machine

open Sys2Proof

/-- Track `t`, and the device with it changed. -/
def Dev.track (d : Dev) (t : Nat) : Track := SMap.get (fun _ => Track.reset) d.yard.tracks t
def Dev.setTrack (d : Dev) (t : Nat) (x : Track) : Dev :=
  d.withYard (fun y => { y with tracks := SMap.set (fun _ => Track.reset) y.tracks t x })
/-- A track is owned exactly when it is not FOREIGN (R98). -/
def Track.owned (x : Track) : Bool := decide (x.state ≠ .foreign)
def Dev.ownedTracks (d : Dev) : List Nat := (d.yard.tracks.filter (fun p => p.2.owned)).map (fun p => p.1)
/-- A cluster is eligible when its YRD_FORBID bit and its PWR_NAPEN bit are 0 (R84, R535). -/
def Dev.eligible (d : Dev) (c : Nat) : Bool := !d.rb rYrdForbid c && !d.rb rPwrNapen c
/-- Tracks homed in each cluster; a cluster among those that `ok` admits with the fewest, lowest number on ties (R84). -/
def Dev.homed (d : Dev) (c : Nat) : Nat := (d.yard.tracks.filter (fun p => p.2.owned && p.2.home == c)).length
def fewest (ok : Nat → Bool) (n : Nat → Nat) : Option Nat :=
  (List.range 32).foldl (fun best c => if !ok c then best else match best with
    | none => some c
    | some b => if n c < n b then some c else best) none

/-- A field of a Yard register clamped to its range (R114, R115), and the epoch length in force (R344). -/
def clamp (lo hi v : Nat) : Nat := if v < lo then lo else if hi < v then hi else v
def Dev.epochUs (d : Dev) : Nat := clamp 2 64 (d.rf rJnlCtl 0 7)
def Dev.consistMax (d : Dev) : Nat := clamp 1 16 (d.rf rYrdCtl 24 5)
def Dev.markLimit (d : Dev) : Nat := clamp 1 15 (d.rf rYrdCtl 16 4)

/-- A byte address in a directory, of bucket `b` of track `t` (R329). -/
def Dev.bucket (d : Dev) (t b : Nat) : Nat := d.rf rPeDir 6 42 * 64 + 64 * (t * 2 ^ d.rf rPeDir 56 4 + b)

/-- What the walk finds (R330): the address of a clean slot that matches, or of the first poisoned slot met, or nothing. -/
inductive Found
  | none
  | slot (a : Nat)
  | poisoned (a : Nat)
  deriving DecidableEq, Repr

/-- A directory slot: its account and LINE word, and whether a byte of it is poisoned. -/
def Dev.slotAt (d : Dev) (a : Nat) : Nat × Nat × Bool :=
  let bs := d.readBytes a 16
  (ofLe (vals (bs.take 8)), ofLe (vals (bs.drop 8)), anyPoison bs)

/-- The slots of one bucket in order: a match, else the first poisoned slot met so far, and whether the walk ends here. -/
def Dev.walkBucket (d : Dev) (acct bk : Nat) (pz : Found) : Found × Bool :=
  (List.range 4).foldl (fun (st : Found × Bool) s =>
    match st.1 with
    | .slot _ => st
    | _ =>
      let x := d.slotAt (bk + 16 * s)
      if x.2.2 then ((if st.1 = .none then .poisoned (bk + 16 * s) else st.1), st.2)
      else if x.2.1 % 2 = 1 ∧ x.1 = acct then (.slot (bk + 16 * s), true)
      else if x.2.1 % 2 = 0 then (st.1, true) else st) (pz, false)

/-- The buckets of a walk (R330): `left` probes remain, of which this is number `p`. -/
def Dev.walk (d : Dev) (acct t j : Nat) : Nat → Nat → Found → Found
  | 0, _, pz => pz
  | left + 1, p, pz =>
    let r := d.walkBucket acct (d.bucket t ((j + p) % 2 ^ d.rf rPeDir 56 4)) pz
    if r.2 then r.1 else d.walk acct t j left (p + 1) r.1

/-- DirFind (R330). -/
def Dev.dirFind (d : Dev) (acct : Word) : Found :=
  if acct = 0 then .none
  else
    let h := d.acctHash acct
    d.walk acct.toNat (fld h 0 16) (fld h 16 (d.rf rPeDir 56 4)) (d.rf rPeDir 60 4) 0 .none

/-- The HBM lines that the valid directory slots of track `t` name, ascending (R103 step 3). -/
def Dev.trackLines (d : Dev) (t : Nat) : List Nat :=
  sorted (fun a b => decide (a ≤ b)) ((List.range (4 * 2 ^ d.rf rPeDir 56 4)).filterMap (fun i =>
    let x := d.slotAt (d.bucket t (i / 4) + 16 * (i % 4))
    if x.2.1 % 2 = 1 && !x.2.2 then some (x.2.1 % 2 ^ 48 / 64) else none))

/-- The accounts that the valid directory slots of track `t` name, each with its line. -/
def Dev.trackAccounts (d : Dev) (t : Nat) : List (Nat × Nat) :=
  (List.range (4 * 2 ^ d.rf rPeDir 56 4)).filterMap (fun i =>
    let x := d.slotAt (d.bucket t (i / 4) + 16 * (i % 4))
    if x.2.1 % 2 = 1 && !x.2.2 then some (x.1, x.2.1 % 2 ^ 48 / 64) else none)

/-- One entry of the migration log (R123). DEDUCED, assumption 104. -/
def Dev.yardLog (d : Dev) (epoch t src dst reason marks lines : Nat) : Dev :=
  let a := d.tt.logBase + 16 * (d.yard.logTail % 2 ^ d.tt.logSize)
  (d.writeBytes a (clean (leBytes 8 epoch ++ leBytes 2 t ++ leBytes 1 src ++ leBytes 1 dst ++ leBytes 1 reason
    ++ leBytes 1 marks ++ leBytes 2 lines))).withYard (fun y => { y with logTail := (y.logTail + 1) % 2 ^ 32 })

/-- TRANSFER of a record East (R48, R374): a record that came by TRANSFER keeps its header. -/
def Dev.transferOut (d : Dev) (door : Door) (source seq arrival : Nat) (bs : List Byte) : Dev :=
  let body := fun (h : List Byte) => h :: (List.range ((bs.length + 63) / 64)).map (fun i => padTo 64 ((bs.drop (64 * i)).take 64))
  match door with
  | .ring hdr => d.sendFrame true (d.newFrame 5 0 0 (body hdr))
  | _ =>
    let tid := d.ring.nextTid
    let p := d.pathOf door
    let d := d.withRing (fun r => { r with nextTid := (tid + 1) % 2 ^ 32, transfers := SMap.set (fun _ => ⟨door, 0, 0⟩) r.transfers tid ⟨door, source, seq⟩ })
    d.sendFrame true (d.newFrame 5 0 0 (body (leBytes 4 tid ++ leBytes 1 d.tt.ringId ++ leBytes 1 p.1 ++ leBytes 1 p.2.1
      ++ leBytes 1 0 ++ leBytes 8 arrival ++ leBytes 2 bs.length ++ leBytes 46 0)))

/-- The state that a DUPLICATE reports (R53, R573). -/
def Dev.dupState (d : Dev) (source seq : Nat) : Nat × Nat :=
  match d.hub.recs.find? (fun r => decide (r.source = source ∧ r.seq = seq)) with
  | some r => (match r.place with | .posted _ => (2, r.commitEpoch) | _ => (1, 0))
  | none =>
    let unsent := d.hub.ackWait.map (fun w => w.2) ++ (d.hub.dgrams.map (fun g => g.acks)).flatten
    match unsent.find? (fun a => decide (a.kind = 2 ∧ a.source = source ∧ a.seq = seq)) with
    | some a => (3, a.epoch)
    | none => (3, 0)

/-- A waybill's fields (R31). -/
structure Waybill where
  length : Nat
  ver : Nat
  cls : Nat
  quiet : Bool
  flags : Nat
  primary : Nat
  source : Nat
  seq : Nat
  deriving DecidableEq, Repr

def waybill (bs : List Byte) : Waybill :=
  let n := fun o k => ofLe ((bs.drop o).take k)
  ⟨n 0 2 % 0x2000, n 0 2 / 0x2000, n 2 2 % 0x1000, decide (n 2 2 / 0x1000 % 2 = 1), n 2 2 / 0x2000, n 4 8, n 20 2, n 22 6⟩

/-- Whether records of track `t` stand in the hold (R105). -/
def Dev.heldOf (d : Dev) (t : Nat) : List Nat :=
  d.yard.hold.filter (fun i => match d.recOf i with | some r => r.track == t | none => false)

/-- Whether a record of track `t` would go to the hold (R105). -/
def Dev.goesToHold (d : Dev) (t : Nat) : Bool := decide ((d.track t).state = .moving) || !(d.heldOf t).isEmpty

/-- The record queue of a track in a cluster (R83). -/
def recordQueue (cluster t : Nat) : Nat := 128 * cluster + t % 128

/-- A record joins its track's queue, behind every record of the track that waits there (R83, R93). -/
def Dev.queueRec (d : Dev) (r : Rec) : Dev :=
  let x := d.track r.track
  let d := d.enqueueRec r (recordQueue x.home r.track)
  let y := d.track r.track
  d.setTrack r.track { y with waiting := y.waiting ++ [r.id] }

/-- HOLD_FULL is set while the hold has no entry left (R105, R119). -/
def Dev.noteHold (d : Dev) : Dev := if Config.holdSize ≤ d.yard.hold.length then d.setRb rYrdErr 3 true else d

/-- Steps 10-12 of R46 at the owner: the duplicate window, the watermark, acceptance. The answer is none where the record is
accepted; otherwise the acknowledgement. The record's bytes are the `len` bytes at `addr` of the record buffer. A record queue with no free slot
refuses as one at its watermark does, and its ENABLE is not looked at. DEDUCED, assumption 127; DESIGN CHOICE, assumption 115. -/
def Dev.judgeRec (d : Dev) (w : Waybill) (t : Nat) (door : Door) (arrival addr len : Nat) : Option Ack × Dev :=
  let own := some d.tt.ringId
  match (d.win w.source).judge w.seq with
  | .duplicate => let x := d.dupState w.source w.seq; (some ⟨5, x.1, w.source, w.seq, own, x.2⟩, d)
  | .stale => (some ⟨4, 6, w.source, w.seq, own, 0⟩, d)
  | .new =>
    let x := d.queue (recordQueue (d.track t).home t)
    if !d.goesToHold t && (decide (x.mark ≤ x.occ) || x.full) then (some ⟨3, 1, w.source, w.seq, own, 0⟩, d)
    else
      let d := d.setWin w.source ((d.win w.source).put w.seq 1)
      let r : Rec := ⟨d.hub.nextRec, addr, len, w.source, w.seq, w.cls, w.quiet, w.primary, t, door, arrival, .hold, false, 0, none⟩
      let d := d.withHub (fun h => { h with recs := h.recs ++ [r], nextRec := h.nextRec + 1 })
      if d.goesToHold t then (none, (d.withYard (fun y => { y with hold := y.hold ++ [r.id] })).noteHold)
      else (none, d.queueRec r)

/-- The address of a thread's consist slot (R89). -/
def slotOf (g : Nat) : Nat := Config.storeBase + 0x1000000 * clusterOf g + 0x3FB800 + 192 * localOf g

/-- Thread `g` is in its cluster's dispatch pool, and free (R85); the device is not held (R410). -/
def Dev.inPool (d : Dev) (g : Nat) : Bool := (SMap.get (fun _ => 0) d.tt.pools (clusterOf g)).testBit (localOf g)
def Dev.freeThread (d : Dev) (g : Nat) : Bool :=
  let t := d.thread g
  d.inPool g && decide (t.run = .free) && t.consist.isNone && (d.cluster (clusterOf g)).released && !(d.cluster (clusterOf g)).napping
    && !d.stopping g && !d.box.wordHeld

/-- The thread that takes a consist of cluster `c` (R88). -/
def Dev.chooseThread (d : Dev) (c : Nat) : Option Nat :=
  let n := fun core => ((List.range 8).filter (fun i => d.freeThread (96 * c + 8 * core + i))).length
  let core := (List.range 12).foldl (fun best k => if n k = 0 then best else match best with
    | none => some k
    | some b => if n b < n k then some k else best) none
  core.bind (fun k => ((List.range 8).map (fun i => 96 * c + 8 * k + i)).find? d.freeThread)

/-- Whether track `t` is ready for dispatch in cluster `c` (R86). -/
def Track.ready (x : Track) (c : Nat) : Bool :=
  decide (x.home = c ∧ (x.state = .settled ∨ x.state = .planned ∨ x.state = .marked)) && !x.occ && !x.waiting.isEmpty

/-- The track whose oldest waiting record was accepted earliest (R88). -/
def Dev.chooseTrack (d : Dev) (c : Nat) : Option Nat :=
  ((d.yard.tracks.filter (fun p => p.2.ready c)).foldl (fun (best : Option (Nat × Nat)) p =>
    let i := p.2.waiting.headD 0
    match best with
    | none => some (i, p.1)
    | some b => if i < b.1 then some (i, p.1) else best) none).map (fun p => p.2)

/-- The records of a consist (R87): the oldest waiting ones of one class. -/
def consistRecs (cls : Nat) : Nat → List Rec → List Rec
  | 0, _ => []
  | _, [] => []
  | n + 1, r :: rs => if r.cls = cls then r :: consistRecs cls n rs else []

/-- The 192 bytes of a consist slot at dispatch (R89). -/
def Dev.slotImage (d : Dev) (t cls : Nat) (rs : List Rec) : List Byte :=
  leBytes 2 t ++ leBytes 1 rs.length ++ leBytes 1 0 ++ leBytes 2 cls ++ leBytes 2 0 ++ leBytes 4 d.yard.gen
  ++ leBytes 4 d.jnl.epoch ++ leBytes 16 0
  ++ ((List.range 16).map (fun i => leBytes 8 (match rs[i]? with
      | some r => (match r.place with | .queue q s => d.slotAddr q s | _ => 0)
      | none => 0))).flatten
  ++ leBytes 32 0

/-- The state a dispatched thread starts with (R90). -/
def dispatchThread (t : Thread) (g track : Nat) (entry ts : Nat) (rs : List Rec) (ids : List ConsistRec) (gen epoch : Nat) : Thread :=
  let t := { t with
    run := .running
    pc := word (Config.codeBase + 0x1000000 * clusterOf g + entry)
    ts := word ts &&& 0xBF7F#64
    shadow := none
    mc := none
    wd := 0
    lp0 := { t.lp0 with ln := 0 }
    lp1 := { t.lp1 with ln := 0 }
    lp2 := { t.lp2 with ln := 0 }
    consist := some ⟨track, ids, gen, epoch⟩
    releasing := false }
  ((t.physSet (t.pReg 0) ⟨word (slotOf g), false⟩).physSet (t.pReg 1) ⟨word rs.length, false⟩).physSet (t.pReg 2) ⟨word track, false⟩

/-- Dispatch of a consist in cluster `c` (R86-R90): unchanged when no track is ready or no thread is free. -/
def Dev.dispatch (d : Dev) (c : Nat) : Dev :=
  match d.chooseTrack c, d.chooseThread c with
  | some t, some g =>
    let x := d.track t
    let all := x.waiting.filterMap d.recOf
    match all with
    | [] => d
    | r :: _ =>
      let rs := consistRecs r.cls d.consistMax all
      let ids := rs.map (fun r => ConsistRec.mk (match r.place with | .queue q s => d.slotAddr q s | _ => 0) r.id)
      let img := d.slotImage t r.cls rs
      let cls := SMap.get (fun _ => (0, 0)) d.tt.classes r.cls
      let d := (d.writeBytes (slotOf g) (clean img)).capture c 1 (localOf g) 0 (slotOf g) img
      let d := d.setThread g (dispatchThread (d.thread g) g t cls.2 cls.1 rs ids d.yard.gen d.jnl.epoch)
      let d := d.setTrack t { x with occ := true, waiting := x.waiting.drop rs.length, recs := sat 65535 (x.recs + rs.length) }
      let l := SMap.get (fun _ => Load.reset) d.yard.loads c
      d.withYard (fun y => { y with loads := SMap.set (fun _ => Load.reset) y.loads c { l with recsd := l.recsd + rs.length } })
  | _, _ => d

/-- Whether every acknowledgement that the release of a consist may make finds room in its queue (R57). -/
def Dev.releaseRoom (d : Dev) (c : Consist) : Bool :=
  c.recs.all (fun x => match d.recOf x.recId with
    | some r => d.ackRoom r.door ⟨1, 0, r.source, r.seq, none, 0⟩ && !d.hub.ackWait.any (fun w =>
        decide (ackQueue w.1 w.2 = ackQueue r.door ⟨1, 0, r.source, r.seq, none, 0⟩ ∧ (ackQueue w.1 w.2).isSome))
    | none => true)

/-- A record acknowledged POSTED against its outcome byte is counted, for its arrival port too (R78, R554). -/
def Dev.countOutcome (d : Dev) (door : Door) : Dev :=
  let d := d.count rQmWtDrop 52 12
  match door with
  | .eth r => d.count (rEthDrop r.port) 52 12
  | _ => d

/-- What becomes of record `i` of a consist at its release (R58, R59, R338). -/
def Dev.releaseRec (d : Dev) (group g : Nat) (i recId : Nat) : Dev :=
  match d.recOf recId with
  | none => d
  | some r =>
    let d := d.dequeueRec r
    let b := (d.byteAt (slotOf g + 16 + i)).toNat
    let posted := fun (d : Dev) => d.mapRec recId (fun r => { r with place := .posted d.jnl.epoch, owed := some group })
    if r.ok then posted (if b / 64 = 0 then d else d.countOutcome r.door)
    else if b / 64 = 0 then
      (posted d).withHub (fun h => { h with markers := h.markers ++ [⟨group, recId, r.source + r.seq * 2 ^ 16, r.primary, r.cls, g⟩] })
    else
      let a : Nat × Nat := if b = 0x7F then (3, 3) else if b / 64 = 1 then (3, 0x80 + b % 64) else if b / 64 = 2 then (4, 0x80 + b % 64) else (4, 8)
      ((d.clearSeen r.source r.seq).dropRec recId).ack r.door ⟨a.1, a.2, r.source, r.seq, some d.tt.ringId, 0⟩

/-- The release of the consist of thread `g` (R91, R338): outcomes, markers, acknowledgements, the track. The thread becomes FREE. -/
def Dev.releaseThread (d : Dev) (g : Nat) : Dev :=
  let t := d.thread g
  let d := d.setThread g { t with run := .free, consist := none, releasing := false, shadow := none }
  match t.consist with
  | none => d
  | some c =>
    let group := (c.recs.head?.map (fun x => x.recId)).getD 0
    let d := (List.range c.recs.length).foldl (fun d i => match c.recs[i]? with
      | some x => d.releaseRec group g i x.recId
      | none => d) d
    let d := d.setTrack c.track { d.track c.track with occ := false }
    d.settleMarkers.tryCommit

/-- The consist of a thread that is restarted or reset (R60, R92): records with a journaled POST are POSTED, the others are forgotten. An outcome
byte is not looked at. DESIGN CHOICE, assumption 120. -/
def Dev.abandonThread (d : Dev) (g : Nat) : Dev :=
  match (d.thread g).consist with
  | none => d
  | some c =>
    let d := d.setThread g { d.thread g with consist := none, releasing := false }
    let d := c.recs.foldl (fun d x => match d.recOf x.recId with
      | none => d
      | some r =>
        let d := d.dequeueRec r
        if r.ok then d.mapRec r.id (fun r => { r with place := .posted d.jnl.epoch, owed := some r.id })
        else (d.clearSeen r.source r.seq).dropRec r.id) d
    let d := d.setTrack c.track { d.track c.track with occ := false }
    d.settleMarkers.tryCommit

/-- The records of a track that ceases to be owned, not yet dispatched (R108): transferred in acceptance order where a live member
owns the track, forgotten where none does. -/
def Dev.forsakeTrack (d : Dev) (t : Nat) (transfer : Bool) : Dev :=
  let x := d.track t
  let held := d.heldOf t
  let d := (x.waiting ++ held).foldl (fun d i => match d.recOf i with
    | none => d
    | some r =>
      let d := (d.dequeueRec r).clearSeen r.source r.seq
      let d := if transfer then d.transferOut r.door r.source r.seq r.arrival (vals (d.readBytes r.addr r.len)) else d
      d.dropRec i) d
  (d.withYard (fun y => { y with hold := y.hold.filter (fun i => !held.contains i) })).setTrack t { d.track t with waiting := [] }

/-- A track ceases to be owned (R99, R108): its plan is cancelled; a MOVING track is FOREIGN once its move is complete. -/
def Dev.loseTrack (d : Dev) (t owner : Nat) (transfer : Bool) : Dev :=
  let x := d.track t
  if !x.owned then d.setTrack t { x with owner := owner }
  else if x.state = .moving then d.setTrack t { x with owner := owner, leaving := some (match x.leaving with
      | some l => (l.1 && transfer, l.2)
      | none => (transfer, d.jnl.epoch)) }
  else
    let d := (d.setTrack t { x with owner := owner }).forsakeTrack t transfer
    let d := d.yardLog d.jnl.epoch t x.home 0xFF 7 x.marks 0
    d.setTrack t { d.track t with state := .foreign, home := 0, target := 0, reason := 0, marks := 0, streak := 0 }

/-- A pin cluster that is not eligible governs, and PIN_FORBID is set (R110). -/
def Dev.notePin (d : Dev) (c : Nat) : Dev := if d.eligible c then d else d.setRb rYrdErr 2 true

/-- Tracks gain a home (R84): pinned ones first, then in ascending order the eligible cluster with the fewest homed tracks. Their statistics start
anew. DESIGN CHOICE, assumption 121. -/
def Dev.gainTracks (d : Dev) (ts : List Nat) (log : Bool) : Dev :=
  let own := fun (d : Dev) (t c : Nat) =>
    let x := d.track t
    let d := d.setTrack t { x with
      owner := d.tt.ringId, state := .settled, home := c, target := 0, reason := 0, marks := 0, leaving := none,
      posts := 0, cposts := 0, recs := 0, bmcnt := 0, c := c, bmc := 0, streak := 0 }
    if log then d.yardLog d.jnl.epoch t 0xFF c 6 0 0 else d
  let ts := ts.filter (fun t => !(d.track t).owned)
  let d := ts.foldl (fun d t => match (d.track t).pin with | some c => own (d.notePin c) t c | none => d) d
  ts.foldl (fun d t => match (d.track t).pin with
    | some _ => d
    | none => own d t ((fewest d.eligible d.homed).getD 0)) d

/-- Plan(t, d, r) of R100. -/
def Dev.planMove (d : Dev) (t dst reason : Nat) : Dev :=
  d.setTrack t { d.track t with state := .planned, target := dst, reason := reason, marks := 0 }
/-- A plan is cancelled (R99). -/
def Dev.unplan (d : Dev) (t : Nat) : Dev :=
  d.setTrack t { d.track t with state := .settled, target := 0, reason := 0, marks := 0, streak := 0 }

/-- Tracks that would be homed in `c` counting the plans of this boundary (R110). -/
def Dev.homedPlanned (d : Dev) (fresh : List Nat) (c : Nat) : Nat :=
  (d.yard.tracks.filter (fun p => p.2.owned &&
    (if fresh.contains p.1 then p.2.target else p.2.home) == c)).length

/-- YRD_FORBID applied at the boundary where the bits `fresh` become 1 (R108, R110). -/
def Dev.applyForbid (d : Dev) (freshBits : Nat) : Dev :=
  let step := fun (st : Dev × List Nat) (t : Nat) =>
    let d := st.1
    let x := d.track t
    let best := (fewest d.eligible (d.homedPlanned st.2)).getD x.home
    if x.state = .settled then
      if freshBits.testBit x.home && x.pin.isNone then
        if best = x.home then st else (d.planMove t best 3, st.2 ++ [t])
      else st
    else if (x.state = .planned ∨ x.state = .marked) ∧ freshBits.testBit x.target then
      if x.reason = 1 ∨ x.reason = 2 then (d.unplan t, st.2)
      else if x.reason = 3 then
        if best = x.home then (d.unplan t, st.2)
        else (d.setTrack t { x with target := best }, st.2 ++ [t])
      else st
    else st
  let stays := d.ownedTracks.any (fun t => (d.track t).pin.any freshBits.testBit)
  let d := if stays then d.setRb rYrdErr 2 true else d
  if freshBits = 0 then d else (d.ownedTracks.foldl step (d, [])).1

/-- One pin or unpin applied (R108, R109). -/
def Dev.applyPin (d : Dev) (p : PinCmd) : Dev :=
  let x := d.track p.track
  if p.pin then
    let d := d.notePin p.cluster
    let d := d.setTrack p.track { x with pin := some p.cluster }
    if x.state = .settled then (if p.cluster = x.home then d else d.planMove p.track p.cluster 4)
    else if x.state = .planned ∨ x.state = .marked then
      if p.cluster = x.home then d.unplan p.track
      else d.setTrack p.track { d.track p.track with target := p.cluster, reason := 4, marks := 0 }
    else d
  else
    let d := d.setTrack p.track { x with pin := none }
    if (x.state = .planned ∨ x.state = .marked) ∧ x.reason = 4 then d.unplan p.track else d

/-- A pinned SETTLED track away from its pin cluster is planned (R108, R109): the first boundary after its move completed. -/
def Dev.pinAgain (d : Dev) : Dev :=
  d.ownedTracks.foldl (fun d t =>
    let x := d.track t
    match x.pin with
    | some c => if x.state = .settled ∧ c ≠ x.home then d.planMove t c 4 else d
    | none => d) d

/-- Records waiting for track `t` in its queue and in the hold. -/
def Dev.waitingOf (d : Dev) (t : Nat) : Nat := (d.track t).waiting.length + (d.heldOf t).length

/-- The evaluation of one track (R100), with the automatic budget left. -/
def Dev.evalTrack (d : Dev) (budget t : Nat) : Dev × Nat :=
  let x := d.track t
  let pct := clamp 50 100 (d.rf rYrdPolicy 0 7)
  let q := decide (x.c ≠ x.home) && d.eligible x.c && x.pin.isNone && decide (d.rf rYrdPolicy 49 12 ≤ x.posts)
    && decide (x.posts * pct ≤ x.cposts * 100)
  let streak := if x.state = .settled then (if q then sat 63 (x.streak + 1) else 0) else 0
  let go := decide (x.state = .settled) && d.rb rYrdCtl 0 && decide (clamp 1 63 (d.rf rYrdPolicy 8 6) ≤ streak) && decide (0 < budget)
  let d := d.setTrack t { x with streak := if go then 0 else streak }
  let d := if go then d.planMove t x.c 1 else d
  let y := d.track t
  let nxt := if x.bmcnt = 0 then x.home else x.bmc
  (d.setTrack t { y with streak := if nxt ≠ x.c then 0 else y.streak, c := nxt, posts := 0, cposts := 0, recs := 0, bmcnt := 0 },
    if go then budget - 1 else budget)

/-- The load of a cluster in the closed epoch (R97). -/
def Load.of (l : Load) : Nat := l.recsd + l.wait

/-- The load evaluation of one cluster (R100): `closed` holds the tracks as the epoch closed; loads are adjusted by each plan. -/
def Dev.evalLoad (closed : SMap Track) (k total : Nat) (st : Dev × Nat × (Nat → Nat)) (c : Nat) : Dev × Nat × (Nat → Nat) :=
  let d := st.1
  let budget := st.2.1
  let load := st.2.2
  let l := SMap.get (fun _ => Load.reset) d.yard.loads c
  let streak := if 0 < total ∧ total * (100 + clamp 5 200 (d.rf rYrdPolicy 16 8)) < load c * 100 * k then sat 255 (l.streak + 1) else 0
  let setL := fun (d : Dev) (n : Nat) => d.withYard (fun y => { y with loads := SMap.set (fun _ => Load.reset) y.loads c { l with streak := n } })
  let d := setL d streak
  if d.rb rYrdCtl 1 && decide (clamp 1 63 (d.rf rYrdPolicy 24 6) ≤ streak) && decide (0 < budget) then
    match fewest (fun x => d.eligible x && decide (x ≠ c)) load with
    | none => (d, budget, load)
    | some dst =>
      let gap := load c - load dst
      let pick := closed.foldl (fun (best : Option (Nat × Nat)) p =>
        let x := d.track p.1
        if x.state = .settled ∧ x.pin = none ∧ x.home = c ∧ 0 < p.2.recs ∧ p.2.recs * 2 ≤ gap then
          match best with
          | none => some (p.1, p.2.recs)
          | some b => if b.2 < p.2.recs then some (p.1, p.2.recs) else best
        else best) none
      match pick with
      | none => (d, budget, load)
      | some (t, n) => (setL (d.planMove t dst 2) 0, budget - 1,
          fun x => if x = c then load c - n else if x = dst then load dst + n else load x)
  else (d, budget, load)

/-- The evaluation of the closed epoch (R100). -/
def Dev.yardEvaluate (d : Dev) : Dev :=
  let closed := d.yard.tracks
  let d := (List.range 32).foldl (fun d c =>
    let l := SMap.get (fun _ => Load.reset) d.yard.loads c
    let w := ((d.yard.tracks.filter (fun p => p.2.owned && p.2.home == c)).map (fun p => d.waitingOf p.1)).sum
    d.withYard (fun y => { y with loads := SMap.set (fun _ => Load.reset) y.loads c { l with wait := w } })) d
  let r := d.ownedTracks.foldl (fun st t => Dev.evalTrack st.1 st.2 t) (d, clamp 0 32 (d.rf rYrdCtl 8 6))
  let d := r.1
  let el := (List.range 32).filter d.eligible
  let load := fun c => (SMap.get (fun _ => Load.reset) d.yard.loads c).of
  (el.foldl (Dev.evalLoad closed el.length ((el.map load).sum)) (d, r.2, load)).1

/-- The group of R102 in which a candidate takes its slot. -/
def Track.slotGroup (x : Track) : Nat :=
  if x.state = .marked then 1 else if x.reason = 4 then 2 else if x.reason = 3 then 3 else if x.reason = 1 then 4 else 5

/-- The POSTs of a track that enters MOVING wait in the hub for the engine of its destination (R106). -/
def Dev.holdPosts (d : Dev) (t : Nat) : Dev :=
  d.withHub (fun h => { h with posts := h.posts.map (fun p =>
    if p.track = t then { p with held := true, arrived := false, engine := (d.track t).target } else p) })

/-- One candidate judged at a boundary (R99, R102). -/
def Dev.judgeMove (st : Dev × Nat) (t : Nat) : Dev × Nat :=
  let d := st.1
  let x := d.track t
  if 32 ≤ st.2 ∨ ¬ (x.state = .planned ∨ x.state = .marked) then st
  else if x.target = x.home then (d.unplan t, st.2)
  else if !x.occ then
    (((d.setTrack t { x with state := .moving }).holdPosts t).withYard (fun y => { y with moves := y.moves ++ [(t, d.jnl.epoch)] }), st.2 + 1)
  else
    let m := sat 15 (x.marks + 1)
    if (x.reason = 1 ∨ x.reason = 2) ∧ d.markLimit ≤ m then
      let d := ((d.count rYrdErr 16 16).setRb rYrdErr 4 true).yardLog d.jnl.epoch t x.home x.home 5 m 0
      (d.unplan t, st.2)
    else (d.setTrack t { x with state := .marked, marks := m }, st.2)

/-- Candidates that were planned before this boundary, and have stayed so, enter MOVING (R102). -/
def Dev.startMoves (d : Dev) (old : List Nat) : Dev × Nat :=
  let order := (List.range 5).flatMap (fun k => old.filter (fun t => (d.track t).slotGroup == k + 1))
  order.foldl Dev.judgeMove (d, 0)

/-- Order 3 of R346, after YRD_FORBID's new value stands: `freshBits` are the bits that became 1. It answers whether a track
changed HOME. A plan that a pin replaces, or a forbid makes again, keeps its place. DEDUCED, assumption 44; DESIGN CHOICE, assumption 123. -/
def Dev.yardBoundary (d : Dev) (freshBits : Nat) : Dev × Bool :=
  let planned := fun (d : Dev) (t : Nat) => decide ((d.track t).state = .planned ∨ (d.track t).state = .marked)
  let due := d.ownedTracks.filter (planned d)
  let q := d.yard.pinq
  let d := d.applyForbid freshBits
  let pinned := q.foldl (fun (st : Dev × List Nat) p => let d := st.1.applyPin p; (d, st.2.filter (planned d)))
    (d.withYard (fun y => { y with pinq := [] }), due.filter (planned d))
  let r := pinned.1.pinAgain.yardEvaluate.startMoves pinned.2
  let d := r.1.withYard (fun y => { y with loads := y.loads.map (fun p => (p.1, { p.2 with recsd := 0 })) })
  (d, decide (0 < r.2))

/-- The account lines of a moving track (R103 step 3): up to 1,024 go from store `a` to store `b`; the rest are written back and
invalidated. It answers how many lines were moved. -/
def Dev.moveLines (d : Dev) (t a b : Nat) : Dev × Nat :=
  let names := d.trackLines t
  let held := names.filter (fun l => (d.cluster a).lines.any (fun x => x.line == l))
  let d := (held.take 1024).foldl (fun d l =>
    match (d.cluster a).lines.find? (fun x => x.line == l) with
    | none => d
    | some y =>
      let d := d.undoLine a l
      let ca := d.cluster a
      let d := (d.setCluster a { ca with lines := ca.lines.filter (fun x => x.line ≠ l) }).capture b 2 0x7F
        (y.writable.toNat + 2) (64 * l) (linePayload (d.readBytes (64 * l) 64))
      let d := match d.victim b l with | some v => d.dropLine b v | none => d
      d.installLine b l y.writable y.old) d
  ((held.drop 1024).foldl (fun d l => d.dropLine a l) d, Nat.min held.length 1024)

/-- Held records of a track are appended to its queue while it has slots (R105). -/
def Dev.drainHold (d : Dev) (t : Nat) : Dev :=
  let x := d.track t
  if x.state = .moving || !x.owned then d
  else (d.heldOf t).foldl (fun d i => match d.recOf i with
    | none => d
    | some r =>
      let q := recordQueue (d.track t).home t
      if (d.queue q).occ < (d.queue q).size ∧ (d.heldOf t).head? = some i then
        (d.withYard (fun y => { y with hold := y.hold.filter (fun j => j ≠ i) })).queueRec r
      else d) d

/-- The POSTs that `sel` picks reach their engines, in the order in which they reached the hub; the arrival of one from another cluster, or of one
that waited for a move, is captured (R113, R333, R495). -/
def Dev.arrivePosts (d : Dev) (sel : PostReq → Bool) : Dev :=
  let ps := d.hub.posts.filter sel
  let d := ps.foldl (fun d p => if !p.held && decide (clusterOf p.g = p.engine) then d
    else d.capture p.engine 6 0x7F 0 0 (leBytes 8 p.acct.toNat ++ p.amt ++ leBytes 8 p.ref
      ++ leBytes 8 (p.cls % 2 ^ 12 + p.g % 2 ^ 12 * 2 ^ 12 + p.world.toNat * 2 ^ 24 + p.sup.toNat * 2 ^ 25 + p.key * 2 ^ 26
        + p.user * 2 ^ 30 + p.recId.isNone.toNat * 2 ^ 34 + p.rel.toNat * 2 ^ 35) ++ leBytes 8 0)) d
  d.withHub (fun h =>
    let rest := h.posts.filter (fun p => !sel p)
    { h with posts := rest.filter (fun p => p.arrived) ++ ps.map (fun p => { p with arrived := true }) ++ rest.filter (fun p => !p.arrived) })

/-- The completion of the move of track `t` (R103): records, lines, HOME, the log entry, held records and waiting POSTs. It waits
while neither the destination queue nor the hold has room. -/
def Dev.completeMove (d : Dev) (t : Nat) : Dev :=
  match (d.yard.moves.take 8).find? (fun p => p.1 == t) with
  | none => d
  | some m =>
    let x := d.track t
    let a := x.home
    let b := x.target
    let qb := recordQueue b t
    let room := (d.queue qb).size - (d.queue qb).occ
    let excess := x.waiting.length - room
    if Config.holdSize < d.yard.hold.length + excess then d
    else
      let recs := x.waiting.filterMap d.recOf
      let d := recs.foldl (fun d r => d.dequeueRec r) d
      let d := (recs.take room).foldl (fun d r => d.enqueueRec { r with place := .hold } qb) (recs.foldl (fun d r => d.mapRec r.id (fun r => { r with place := .hold })) d)
      let late := (recs.drop room).map (fun r => r.id)
      let d := (d.withYard (fun y => { y with hold := late ++ y.hold, moves := y.moves.filter (fun p => p.1 ≠ t) })).noteHold
      let r := d.moveLines t a b
      let d := r.1
      let d := d.setTrack t { x with state := .settled, home := b, target := 0, reason := 0, marks := 0, streak := 0, waiting := (recs.take room).map (fun r => r.id) }
      let d := (d.yardLog m.2 t a b x.reason x.marks r.2).count rYrdErr 32 32
      let d := match x.leaving with
        | some (transfer, epoch) =>
          let d := (d.setTrack t { d.track t with leaving := none }).forsakeTrack t transfer
          let d := d.yardLog epoch t b 0xFF 7 0 0
          d.setTrack t { d.track t with state := .foreign, home := 0 }
        | none => d.drainHold t
      let d := d.arrivePosts (fun p => p.held && decide (p.track = t))
      if d.yard.moves.isEmpty then
        match d.yard.snap with
        | some (addr, img) => (((d.writeBytes addr (clean img)).withYard (fun y => { y with snap := none })).setRb rYrdSnap 1 true).setRb rYrdSnap 0 false
        | none => d
      else d

/-- A track table entry (R85). -/
def Dev.trackEntry (d : Dev) (t : Nat) : Nat :=
  let x := d.track t
  let shadow := d.ring.replicas.any (fun p => p.1 == x.owner)
  let st := match x.state with | .foreign => 0 | .settled => 1 | .planned => 2 | .marked => 3 | .moving => 4
  let tgt := if 2 ≤ st then x.target else 0
  let own := x.owned && decide (x.owner = d.tt.ringId)
  x.owner % 16 + own.toNat * 2 ^ 4 + (shadow && !own).toNat * 2 ^ 5 + x.pin.isSome.toNat * 2 ^ 6 + x.occ.toNat * 2 ^ 7
    + (if own then x.home else 0) * 2 ^ 8 + st * 2 ^ 13 + tgt * 2 ^ 16 + x.reason * 2 ^ 21 + x.marks * 2 ^ 24
    + sat (2 ^ 32 - 1) (d.waitingOf t) * 2 ^ 32

/-- A statistics entry (R95): zeros for a track that was not owned in the closed epoch, or is not owned now (`own`). The values are those before the
boundary's evaluation. DESIGN CHOICE, assumption 124. -/
def statEntry (own : Bool) (x : Track) : List Byte :=
  if own && x.owned then leBytes 2 x.posts ++ leBytes 2 x.cposts ++ leBytes 2 x.recs ++ leBytes 2 x.bmcnt ++ leBytes 1 x.c ++ leBytes 1 x.bmc
    ++ leBytes 1 x.streak ++ leBytes 5 0
  else leBytes 16 0

/-- A cluster-load entry (R122): LSTREAK is the value after the boundary's evaluation. DESIGN CHOICE, assumption 124. -/
def Dev.loadEntry (d : Dev) (closedRecsd : Nat → Nat) (c : Nat) : List Byte :=
  let l := SMap.get (fun _ => Load.reset) d.yard.loads c
  leBytes 4 (closedRecsd c) ++ leBytes 4 l.wait ++ leBytes 4 (d.homed c) ++ leBytes 1 l.streak
  ++ leBytes 1 ((!d.eligible c).toNat + 2 * (d.inReset c).toNat) ++ leBytes 2 0

/-- A Yard snapshot (R122): `closed` holds the statistics of the closed epoch, `recsd` its dispatched records by cluster. -/
def Dev.yardImage (d : Dev) (what : Nat) (closed : SMap Track) (recsd : Nat → Nat) : List Byte :=
  leBytes 8 d.jnl.epoch ++ leBytes 4 d.yard.gen ++ leBytes 1 what ++ leBytes 1 d.tt.ringId ++ leBytes 2 0 ++ d.hashId
  ++ leBytes 8 d.tt.logBase ++ leBytes 8 0
  ++ (if what = 1 then [] else ((List.range 65536).map (fun t => leBytes 8 (d.trackEntry t))).flatten)
  ++ (if what = 0 then [] else
      ((List.range 65536).map (fun t =>
        statEntry ((d.track t).owned && decide ((d.track t).owner = d.tt.ringId)) (SMap.get (fun _ => Track.reset) closed t))).flatten
      ++ ((List.range 32).map (d.loadEntry recsd)).flatten)

/-- The requested Yard snapshot at a boundary (R108, R120): written when the moves of the boundary are complete. -/
def Dev.yardSnapshot (d : Dev) (closed : SMap Track) (recsd : Nat → Nat) : Dev :=
  if d.rb rYrdSnap 0 && d.yard.snap.isNone then
    let a := d.rf rYrdSnap 12 36 * 4096
    let what := d.rf rYrdSnap 8 2
    let img := d.yardImage what closed recsd
    if Config.hbmEnd < a + img.length then (d.setRb rYrdSnap 2 true).setRb rYrdSnap 0 false
    else if d.yard.moves.isEmpty then ((d.writeBytes a (clean img)).setRb rYrdSnap 1 true).setRb rYrdSnap 0 false
    else d.withYard (fun y => { y with snap := some (a, img) })
  else d

/-- A POST counted to its track from cluster `x` (R95, R96). -/
def Track.countPost (y : Track) (x : Nat) : Track :=
  let y := if y.bmcnt = 0 then { y with bmc := x, bmcnt := 1 }
    else if y.bmc = x then { y with bmcnt := sat 65535 (y.bmcnt + 1) } else { y with bmcnt := y.bmcnt - 1 }
  { y with posts := sat 65535 (y.posts + 1), cposts := if x = y.c then sat 65535 (y.cposts + 1) else y.cposts }

/-- CONSIST_DISPATCH of cluster `c` (R86). -/
def execConsistDispatch (c : Nat) (s : State) : Host.Outcome State Fault Refusal :=
  onUnit (decide (c < Config.clusters)) s (fun d => if (d.cluster c).held then d else d.dispatch c)

/-- HOLD_DRAIN of track `t` (R105). -/
def execHoldDrain (t : Nat) (s : State) : Host.Outcome State Fault Refusal :=
  onUnit (decide (t < 65536)) s (fun d => d.drainHold t)

end Sys2Proof.Machine
end

