-- ==== Sys2Proof/Machine/Posting.lean ====
section
/-! DEFINITION. POST, the posting engines, POST results and RELEASE (R327-R338). -/
namespace Sys2Proof.Machine

open Sys2Proof

/-- The flags of a POST's result (R335). -/
def postFlags (status : Nat) (neg : Bool) : Nzcv :=
  ⟨decide (status = 0) && neg, decide (status = 0), decide (status = 1), decide (status = 5)⟩

/-- R[rd] of a POST's result (R335). -/
def postValue (status seq : Nat) : Word := word ((if status = 0 then seq % 2 ^ 48 * 2 ^ 16 else 0) + status)

/-- A release that waits for the store buffer, for POST results or for space in an acknowledgement queue is made as soon as it can be
(R57, R337, R338). -/
def Dev.tryRelease (d : Dev) (g : Nat) : Dev :=
  let t := d.thread g
  let room := match t.consist with | some c => d.releaseRoom c | none => true
  if t.releasing && t.sb.isEmpty && t.posts.isEmpty && room then d.releaseThread g else d

/-- RELEASE (R338). -/
def execRelease (g : Nat) (s : State) : Host.Outcome State Fault Refusal :=
  threadEvent g s (fun g d =>
    (d.instr g [] false (fun c =>
      match deliverFloating c with
      | .error e => .error e
      | .ok () =>
        let room := match c.t.consist with | some x => c.d.releaseRoom x | none => true
        if !c.t.sb.isEmpty || !c.t.posts.isEmpty || !room then .error .wait
        else seq4 (c.withT { c.t with releasing := true }))).tryRelease g)

/-- A POST completes without being sent (R332): TAG; a poisoned tag marks rd and FL (R335). It writes FL after the POSTs before it (R125). -/
def tagResult (rd : GReg) (bad : Bool) (c : Ctx) : Run Out :=
  if !c.t.posts.isEmpty then .error .wait else
  let c := c.setFlags (postFlags 9 false)
  if bad then seq4 ((c.setR rd ⟨postValue 9 0, true⟩).poisonFl) else seq4 (c.setR rd ⟨postValue 9 0, false⟩)

/-- A POST is sent to the hub (R332, R333): FOREIGN answers at once from the hub; while its track moves, or its cluster is being reset and the
thread's own is not, it waits there (R106, R531). -/
def sendPost (rd ra : GReg) (amt : List Byte) (rec : Option (Nat × Nat × Nat)) (user : Nat) (rel : Bool) (c : Ctx) : Run Out :=
  let tag := c.d.hub.nextTag
  let acct := (c.r ra).val
  let t := c.d.trackOf acct
  let d := c.d.withHub (fun h => { h with nextTag := tag + 1 })
  let x := d.track t
  let engine := if x.state = .moving then x.target else x.home
  let held := decide (x.state = .moving) || (d.resetting engine && !d.resetting (clusterOf c.g))
  let d := if x.owned then
      d.withHub (fun h => { h with posts := h.posts ++ [⟨tag, c.g, t, acct, amt, rec.map (fun x => x.1), (rec.map (fun x => x.2.1)).getD 0,
        (rec.map (fun x => x.2.2)).getD 0, c.t.world, c.t.sup, c.t.key, user, rel, engine, held, false⟩] })
    else d.withHub (fun h => { h with results := h.results ++ [⟨tag, c.g, 8, 0, false⟩] })
  seq4 ((c.withD d).withT { c.t with posts := c.t.posts ++ [⟨tag, c.t.phys rd, rel⟩] })

/-- POST (R262, R332). It waits for an outstanding POST with the same rd (R125). DEDUCED, assumption 129. -/
def execPost (g : Nat) (rd ra rb rt : GReg) (field : BitVec 3) (rel : Bool) (s : State) : Host.Outcome State Fault Refusal :=
  runThread g s [rd, ra, rb, rt] false (fun c =>
    if field ≠ 0 then illegal c 2 0x36
    else if !c.t.sb.isEmpty || decide (4 ≤ c.t.posts.length) then .error .wait
    else match (if rel then deliverFloating c else .ok ()) with
      | .error e => .error e
      | .ok () =>
        match c.base rb with
        | .error e => .error e
        | .ok b =>
          let ea := b.toNat
          if ea % 16 ≠ 0 then raise c 4 3 ea
          else match c.checkCode .load 3 ea 16 with
            | .error e => .error e
            | .ok c =>
              if (c.r ra).poison then machineCheck c 3
              else match c.fetchBytes ea 16 with
                | .error e => .error e
                | .ok (bs, c) =>
                  if anyPoison bs then machineCheck c 3 ea
                  else
                    let tag := c.r rt
                    let user := fld tag.val 4 4
                    if tag.poison then tagResult rd true c
                    else match c.t.consist with
                      | none => sendPost rd ra (vals bs) none user rel c
                      | some k =>
                        match k.recs[fld tag.val 0 4]? with
                        | none => tagResult rd false c
                        | some x =>
                          let r := c.d.recOf x.recId
                          sendPost rd ra (vals bs) (some (x.recId, (r.map (fun r => r.source + r.seq * 2 ^ 16)).getD 0,
                            (r.map (fun r => r.cls)).getD 0)) user rel c)

/-- An account line's fields (R327). -/
structure Line where
  balance : Except Nat Int
  limit : Except Nat Int
  state : Nat
  poisoned : Bool

def lineOf (bs : List PByte) : Line :=
  let v := vals bs
  ⟨packedValue (v.take 16) 0, packedValue ((v.drop 16).take 16) 0, ofLe ((v.drop 32).take 8), anyPoison bs⟩

/-- What the engine answers before it applies anything (R334): a status, or the new balance. -/
def judgePost (p : PostReq) (l : Line) : Except Nat (Int × Int) :=
  match l.balance, l.limit with
  | .ok b, .ok lim =>
    if l.poisoned || decide (l.state / 256 % 256 ≠ 0) then .error 7
    else if p.world ≠ decide (l.state / 16 % 2 = 1) then .error 2
    else if ¬ ((p.sup = true ∧ p.key = 0) ∨ (p.key ≠ 0 ∧ p.key = l.state % 16)) then .error 2
    else if l.state / 128 % 2 = 1 ∨ l.state / 32 % 4 = 3 then .error 6
    else match packedValue p.amt 0 with
      | .error _ => .error 4
      | .ok x =>
        let n := b + x
        if 10 ^ 31 ≤ n.natAbs then .error 5
        else if l.state / 32 % 4 = 1 ∧ x < 0 ∧ n < lim then .error 1
        else if l.state / 32 % 4 = 2 ∧ 0 < x ∧ lim < n then .error 1
        else .ok (x, n)
  | _, _ => .error 7

/-- The engine's answer goes back to its thread (R335), and the POST leaves the engine and is counted (R95). -/
def Dev.answerPost (d : Dev) (p : PostReq) (status seq : Nat) (neg : Bool) : Dev :=
  let d := d.withHub (fun h => { h with
    posts := h.posts.filter (fun q => q.tag ≠ p.tag), results := h.results ++ [⟨p.tag, p.g, status, seq, neg⟩] })
  d.setTrack p.track ((d.track p.track).countPost (clusterOf p.g))

/-- A posting refused as LINE is counted in PE_ERR (R363). -/
def Dev.peError (d : Dev) (poisoned : Bool) : Dev := (d.count rPeErr (if poisoned then 48 else 32) 16).setRb rPeErr 0 true

/-- The engine of cluster `c` applies a posting (R334): the line, the entry, the record. -/
def Dev.applyPost (d : Dev) (c : Nat) (p : PostReq) (a : Nat) (x n : Int) : Dev :=
  let s := d.jnl.next
  let count := ofLe (vals (d.readBytes (a + 48) 8))
  let d := (d.touch a 64 true).acctUndo c a (d.readBytes a 64)
  let d := d.clusterWrite c a (clean (packedBytes 16 n))
  let d := d.clusterWrite c (a + 40) (clean (leBytes 8 s ++ leBytes 8 (count + 1) ++ leBytes 8 d.jnl.epoch))
  let d := d.capture c 8 0x7F 0 0 (leBytes 8 s ++ leBytes 8 d.jnl.epoch)
  let d := d.appendEntry ⟨p.acct.toNat, x, n, p.ref, p.cls, p.g, p.user, false, p.recId.isNone, p.rel⟩
  match p.recId with
  | some i => d.mapRec i (fun r => { r with ok := true, last := d.jnl.epoch })
  | none => d

/-- A POST does not reach its engine yet (R106, R333, R531): its track moves, its cluster is being reset and the thread's own is not, or an earlier
POST of its thread, or one that has waited for the same move or reset, is to reach the engine before it. -/
def Dev.postHeld (d : Dev) (p : PostReq) : Bool :=
  let before := fun (q : PostReq) => !q.arrived && decide (q.tag < p.tag ∧ q.engine = p.engine)
    && (decide (q.g = p.g) || (q.held && decide (q.track = p.track ∨ (d.track q.track).state ≠ .moving)))
  decide ((d.track p.track).state = .moving) || (d.resetting p.engine && !d.resetting (clusterOf p.g)) || d.hub.posts.any before

/-- A POST that reached its engine earlier is still there: an engine executes POSTs one at a time, in the order in which they reach it (R333). -/
def Dev.engineBusy (d : Dev) (p : PostReq) : Bool :=
  (d.hub.posts.takeWhile (fun q => q.tag ≠ p.tag)).any (fun q => q.arrived && decide (q.engine = p.engine))

/-- The account of a POST at the engine of cluster `c` (R334): the posting, its refusal, or nothing yet, before the account line is writable in the
engine's cluster store, or while the journal buffer is full for entries (R355). -/
def Dev.tryPost (d : Dev) (c : Nat) (p : PostReq) : Dev :=
  match d.dirFind p.acct with
  | .none => d.answerPost p 3 0 false
  | .poisoned _ => (d.peError true).answerPost p 7 0 false
  | .slot sl =>
    let a := (d.slotAt sl).2.1 % 2 ^ 48 / 64 * 64
    if Config.hbmEnd < a + 64 then (d.peError false).answerPost p 7 0 false
    else if !d.holdsWritable c (a / 64) then d
    else
      let l := lineOf (d.readBytes a 64)
      match judgePost p l with
      | .error 7 => (d.peError l.poisoned).answerPost p 7 0 false
      | .error k => d.answerPost p k 0 false
      | .ok (v, n) =>
        if !d.jnl.entryRoom then d.setRb rJnlErr 0 true
        else
          let s := d.jnl.next
          ((d.applyPost c p a v n).answerPost p 0 s (decide (n < 0))).pumpEast

/-- POST_EXECUTE of the POST `tag` (R333): it reaches its engine, and is executed in its turn. -/
def Dev.executePost (d : Dev) (tag : Nat) : Dev :=
  match d.hub.posts.find? (fun p => p.tag == tag) with
  | none => d
  | some p =>
    if !p.arrived && d.postHeld p then d
    else
      let d := if p.arrived then d else d.arrivePosts (fun q => q.tag == tag)
      if d.engineBusy p then d else d.tryPost p.engine p

/-- POST_EXECUTE of the POST `tag`. DEDUCED, assumption 45. -/
def execPostExecute (tag : Nat) (s : State) : Host.Outcome State Fault Refusal := onDev s (fun d => d.executePost tag)

/-- POST_RESULT of the POST `tag` (R335-R337): rd and FL, in the order of the thread's POSTs (R125), and on OK the release of a release form.
DEDUCED, assumption 129. -/
def Dev.returnPost (d : Dev) (tag : Nat) : Dev :=
  match d.hub.results.find? (fun r => r.tag == tag) with
  | none => d
  | some r =>
    let c := d.ctx r.g
    match c.t.posts with
    | [] => d
    | w :: rest =>
      if w.tag ≠ tag then d
      else
        let v := postValue r.status r.seq
        let c := c.withD (d.withHub (fun h => { h with results := h.results.filter (fun q => q.tag ≠ tag) }))
        let c := c.withT (c.t.physSet w.dest ⟨v, false⟩)
        let c := c.setFlags (postFlags r.status r.neg)
        let c := c.withT { c.t with posts := rest, releasing := c.t.releasing || (w.rel && decide (r.status = 0)) }
        let d := c.commit.capture (clusterOf r.g) 7 (localOf r.g) 0 0 (leBytes 8 v.toNat ++ leBytes 8 c.t.fl.val.toNat)
        d.tryRelease r.g

end Sys2Proof.Machine
end

