-- ==== Sys2Proof/Machine/Ingress.lean ====
section
/-! DEFINITION. Records in (chapter 2): what a port makes of a frame, the checks of R46, submit queues, host queues, kernel queues, and the
acknowledgements' way out. -/
namespace Sys2Proof.Machine

open Sys2Proof

/-- What a port makes of a received frame (R41-R45, R555). -/
inductive Taken
  | records
  | credit
  | arp
  | neighbour
  | ptp
  /-- Dropped, counted in the field of QM_WT_DROP and ETHp_DROP at this place and width. -/
  | drop (lo width : Nat)
  /-- The port decodes nothing (R550). -/
  | deaf
  deriving DecidableEq, Repr

def dropOther : Taken := .drop 28 12
def dropHeader : Taken := .drop 14 14
def dropCheck : Taken := .drop 0 14

/-- A port receives while its mode is not 0 and its link is up (R550). -/
def Dev.hears (d : Dev) (p : Nat) : Bool := decide (p < 8 ∧ (d.portCfg p).mode ≠ 0) && d.rb (rEthStatus p) 7

/-- Slots of a port's IEEE 1588 receive ring in use (R555). -/
def Dev.ptpOcc (d : Dev) (p : Nat) : Nat := (d.rf (rEthPtprxidx p) 32 32 + 2 ^ 32 - d.rf (rEthPtprxidx p) 0 32) % 2 ^ 32

/-- The solicited-node multicast address of an IPv6 address. -/
def solicitedNode (ip : Nat) : Nat := 0xFF0200000000000000000001FF000000 + ip % 2 ^ 24

/-- R41-R45: what becomes of a frame on port `p`. -/
def Dev.classify (d : Dev) (p : Nat) (f : RxFrame) : Taken :=
  let cfg := d.portCfg p
  if !d.hears p then .deaf
  else match f with
  | .other _ => dropOther
  | .arp request _ _ tip _ flen =>
    if cfg.maxFrame < flen then dropOther
    else if request && decide (tip = cfg.ipv4 ∧ cfg.ipv4 ≠ 0) then .arp else dropOther
  | .nd solicitation _ _ dip target _ flen =>
    if cfg.maxFrame < flen then dropOther
    else if solicitation && decide (target = cfg.ipv6 ∧ cfg.ipv6 ≠ 0 ∧ (dip = target ∨ dip = solicitedNode target)) then .neighbour
    else dropOther
  | .ptp x =>
    if cfg.maxFrame < x.flen then dropOther
    else if x.addressed && d.rb (rEthPtpctl p) 0 && decide (d.ptpOcc p < 64) then .ptp else dropOther
  | .udp u =>
    let port := d.rf rQmWtCtl 0 16
    if cfg.maxFrame < u.flen then dropOther
    else if u.dport ≠ port ∨ port = 0 ∨ u.dip ≠ (if u.v6 then cfg.ipv6 else cfg.ipv4) ∨ u.dip = 0 then dropOther
    else if u.payload.length < 16 ∨ ofLe (u.payload.take 2) ≠ 0x5457 ∨ u.payload.getD 2 0 ≠ 1 then dropHeader
    else if crc32c (u.payload.take 12 ++ leBytes 4 0 ++ u.payload.drop 16) ≠ ofLe ((u.payload.drop 12).take 4) then dropCheck
    else if u.payload.getD 3 0 = 1 then .records
    else if u.payload.getD 3 0 = 3 then .credit
    else dropHeader

/-- A dropped frame is counted for the device and for its port (R78, R554). -/
def Dev.countDrop (d : Dev) (p lo width : Nat) : Dev := (d.count rQmWtDrop lo width).count (rEthDrop p) lo width

/-- The SOURCE of a datagram's transport header (R42), and the reply address of the datagram (R56). -/
def sourceOf (u : Udp) : Nat := ofLe ((u.payload.drop 4).take 2)
def replyOf (p : Nat) (u : Udp) : Reply := ⟨sourceOf u, p, u.v6, u.sip, u.sport, u.dip, u.dport⟩

/-- What a datagram tells of its source's way back (R45). -/
def peerOf (p : Nat) (u : Udp) : Peer := ⟨sourceOf u, p, u.sip, u.sport, u.smac, u.vlan⟩

/-- A record's port credit is restored when it leaves the ingress buffer (R50). -/
def Dev.restoreCredit (d : Dev) (w : WaitRec) : Dev :=
  match w.door, w.header with
  | .eth r, some s => if w.broke then d else d.setCreditUsed s r.port (d.creditUsed s r.port - 1)
  | _, _ => d

/-- Step 9 of R46 (R572): here, to another member, or nowhere. -/
inductive Owner
  | here
  | there
  | nobody
  deriving DecidableEq, Repr

def Dev.step9 (d : Dev) (t : Nat) : Owner :=
  let x := d.track t
  let lost := d.ring.adopting.any (fun p => p.1 == x.owner)
  let away := if x.owner ≠ d.tt.ringId ∧ d.ring.isLive x.owner ∧ lost = false then Owner.there else .nobody
  match d.ring.state with
  | .member => if x.owned && x.leaving.isNone then .here else away
  | .joining | .resync => away
  | _ => .nobody

/-- The checks 3-8 of R46 that reject or refuse a record, in order (with R75's for a submit queue). -/
def Dev.earlyAck (d : Dev) (w : WaitRec) (b : Waybill) : Option (Nat × Nat) :=
  if !w.enabled then some (4, 7)
  else if w.badLen || decide (b.length < 32 ∨ 4096 < b.length) then some (4, 1)
  else if b.ver ≠ 1 then some (4, 2)
  else if b.flags ≠ 0 then some (4, 4)
  else if b.source = 0 ∨ (w.header.isSome ∧ w.header ≠ some b.source) then some (4, 7)
  else if (SMap.get (fun _ => (0, 0)) d.tt.classes b.cls) = (0, 0) ∧ !(d.tt.classes.any (fun p => p.1 == b.cls)) then some (4, 3)
  else if b.primary = 0 then some (4, 5)
  else if w.broke then some (3, 2)
  else none

/-- OWNER of the acknowledgements of steps 3-8 (R52): the receiving device gives none; the owner of a transferred record names itself. -/
def Dev.earlyOwner (d : Dev) : Door → Option Nat
  | .ring _ => some d.tt.ringId
  | _ => none

/-- Steps 3-12 of R46 for one record, once it has been written into the record buffer (R571): unchanged when the buffer has no room. -/
def Dev.takeRec (d : Dev) (w : WaitRec) : Dev :=
  match d.bufferPlace w.bytes.length with
  | (none, _) => d
  | (some addr, d) =>
    let b := waybill w.bytes
    let d := (d.writeBytes addr (clean w.bytes)).restoreCredit w
    match d.earlyAck w b with
    | some (k, code) => d.ack w.door ⟨k, code, b.source, b.seq, d.earlyOwner w.door, 0⟩
    | none =>
      let t := d.trackOf (word b.primary)
      match d.step9 t with
      | .nobody => d.ack w.door ⟨3, 4, b.source, b.seq, none, 0⟩
      | .there => d.transferOut w.door b.source b.seq w.arrival w.bytes
      | .here =>
        match d.judgeRec b t w.door w.arrival addr w.bytes.length with
        | (some a, d) => d.ack w.door a
        | (none, d) => d

/-- The hold stops a record: a full hold stops every record of an Ethernet ingress buffer, and any other record that would enter it (R105). -/
def Dev.holdStops (d : Dev) (w : WaitRec) : Bool :=
  let b := waybill w.bytes
  let t := d.trackOf (word b.primary)
  decide (Config.holdSize ≤ d.yard.hold.length) && (match w.door with
    | .eth _ => true
    | .host .. => (d.earlyAck w b).isNone && decide (d.step9 t = .here) && d.goesToHold t
    | .ring _ => d.goesToHold t)

/-- Whether the next record can be taken now (R105, R571): it finds room in the record buffer, and the hold does not stop it; and whether the hold
does. -/
def Dev.canTake (d : Dev) (w : WaitRec) : Bool × Bool :=
  let hold := d.holdStops w
  ((d.bufferPlace w.bytes.length).1.isSome && !hold, hold)

/-- A record that has passed step 2: taken at once, or after those that wait (R571). -/
def Dev.receive (d : Dev) (w : WaitRec) : Dev :=
  let c := d.canTake w
  let d := if c.2 then d.setRb rYrdErr 3 true else d
  if d.hub.waiting.isEmpty && c.1 then d.takeRec w else d.withHub (fun h => { h with waiting := h.waiting ++ [w] })

/-- Waiting records are taken in their order while there is room (R571). -/
def Dev.takeWaiting (d : Dev) : Dev :=
  (d.hub.waiting.foldl (fun (st : Dev × Bool) w =>
    if !st.2 then st
    else
      let c := st.1.canTake w
      if c.1 then ((st.1.withHub (fun h => { h with waiting := h.waiting.drop 1 })).takeRec w, true)
      else ((if c.2 then st.1.setRb rYrdErr 3 true else st.1), false)) (d, true)).1

/-- The records of a datagram from offset `off` on, `n` of them (R43, R46 steps 1 and 2). DEDUCED, assumption 33. -/
def Dev.records (source : Nat) (r : Reply) (pl : List Byte) : Nat → Nat → Dev → Dev
  | 0, _, d => d
  | n + 1, off, d =>
    let rest := pl.drop off
    let trunc := fun (d : Dev) => d.countDrop r.port 40 12
    let on := decide (0 < d.allotment source)
    if rest.length < 28 then trunc d
    else
      let b := waybill rest
      if b.length < 32 ∨ 4096 < b.length ∨ rest.length < b.length then
        trunc (d.ack (.eth r) ⟨4, if on then 1 else 7, b.source, b.seq, none, 0⟩)
      else
        let next := off + (b.length + 7) / 8 * 8
        if !on then Dev.records source r pl n next (d.ack (.eth r) ⟨4, 7, b.source, b.seq, none, 0⟩)
        else
          let broke := decide (d.credit source r.port = 0)
          let d := if broke then d else d.setCreditUsed source r.port (d.creditUsed source r.port + 1)
          Dev.records source r pl n next (d.receive ⟨rest.take b.length, some source, true, broke, false, .eth r, d.now⟩)

/-- RECORDS_DATAGRAM on port `p` (R46, R47). Datagrams of one timestamp come in the order of R62. DESIGN CHOICE, assumption 125. -/
def execRecordsDatagram (p : Nat) (u : Udp) (s : State) : Host.Outcome State Fault Refusal :=
  onUnit (decide (p < 8)) s (fun d =>
    if d.classify p (.udp u) = .records then
      (d.notePeer (peerOf p u)).records (sourceOf u) (replyOf p u) u.payload (ofLe ((u.payload.drop 6).take 2)) 16
    else d)

/-- CREDIT_REQUEST on port `p` (R51). -/
def execCreditRequest (p : Nat) (u : Udp) (s : State) : Host.Outcome State Fault Refusal :=
  onUnit (decide (p < 8)) s (fun d =>
    if d.classify p (.udp u) = .credit then
      (d.notePeer (peerOf p u)).sendWt (replyOf p u) 4 (sourceOf u) 0 []
    else d)

/-- ARP_REQUEST on port `p` (R45): a reply from the port's MAC address, in the request's VLAN. DESIGN CHOICE, assumption 114. -/
def execArpRequest (p smac sip tip : Nat) (vlan : Option Nat) (flen : Nat) (s : State) : Host.Outcome State Fault Refusal :=
  onUnit (decide (p < 8)) s (fun d =>
    if d.classify p (.arp true smac sip tip vlan flen) = .arp then d.say (.arpReply p (d.portCfg p).mac smac sip vlan) else d)

/-- NEIGHBOUR_SOLICITATION on port `p` (R45): an advertisement with the port's MAC address, in the request's VLAN. DESIGN CHOICE, assumption 114. -/
def execNeighbourSolicitation (p smac sip dip target : Nat) (vlan : Option Nat) (flen : Nat) (s : State) :
    Host.Outcome State Fault Refusal :=
  onUnit (decide (p < 8)) s (fun d =>
    if d.classify p (.nd true smac sip dip target vlan flen) = .neighbour then d.say (.advert p (d.portCfg p).mac smac sip vlan) else d)

/-- FRAME_DROP on port `p` (R41, R43-R45, R551): a frame that is not accepted is counted. -/
def execFrameDrop (p : Nat) (f : RxFrame) (s : State) : Host.Outcome State Fault Refusal :=
  onUnit (decide (p < 8)) s (fun d =>
    match d.classify p f with
    | .drop lo n => d.countDrop p lo n
    | _ => d)

/-- ACK_COALESCE_EXPIRY (R56): the datagram that is `i`-th among those being filled is sent, after those that were begun before it. -/
def execAckCoalesceExpiry (i : Nat) (s : State) : Host.Outcome State Fault Refusal :=
  onDev s (fun d => if i < d.hub.dgrams.length then (d.hub.dgrams.take (i + 1)).foldl Dev.sendDgram d else d)

/-- RECORD_BUFFER_ROOM (R571). -/
def execRecordBufferRoom (s : State) : Host.Outcome State Fault Refusal := onDev s Dev.takeWaiting

/-- EGRESS_ACK_QUEUE_SPACE (R57): acknowledgements that wait are put where there is space, and releases that wait are made. -/
def execEgressAckQueueSpace (s : State) : Host.Outcome State Fault Refusal :=
  onDev s (fun d => d.drainAcks.thr.foldl (fun d p => d.tryRelease p.1) d.drainAcks)

/-- A queue index that a writer moves to `v` (R69): forward or not at all, with the occupancy within 0 to the size. -/
def QDesc.accepts (x : QDesc) (isTail : Bool) (v : Nat) : Bool :=
  if isTail then decide ((v + 2 ^ 32 - x.tail) % 2 ^ 32 + x.occ ≤ x.size) else decide ((v + 2 ^ 32 - x.head) % 2 ^ 32 ≤ x.occ)

/-- QUEUE_DOORBELL of a host function (R69). -/
def execQueueDoorbell (ctl func loc : Nat) (v : BitVec 32) (s : State) : Host.Outcome State Fault Refusal :=
  onUnit (decide (ctl < 2 ∧ func < 33 ∧ loc < 32)) s (fun d =>
    let q := hostQueue ctl func loc
    let x := d.queue q
    let isTail := decide (x.kind = 4)
    if !x.enable || x.qerr then d
    else if x.accepts isTail v.toNat then
      let d := d.setQueue q (if isTail then { x with tail := v.toNat } else { x with head := v.toNat })
      d.drainAcks.purge
    else d.setQueue q { x with qerr := true })

/-- The 32 bytes of a descriptor (R67), and a descriptor read from them. -/
def QDesc.bytes (x : QDesc) : List Byte :=
  leBytes 8 x.base ++ leBytes 8 x.wb ++ leBytes 1 x.log2 ++ leBytes 1 x.kind ++ leBytes 1 (x.enable.toNat + 2 * x.qerr.toNat)
  ++ leBytes 1 0 ++ leBytes 2 x.vector ++ leBytes 2 x.mark ++ leBytes 4 x.head ++ leBytes 4 x.tail
def descOfBytes (bs : List Byte) : QDesc :=
  let n := fun o k => ofLe ((bs.drop o).take k)
  ⟨n 0 8, n 8 8, n 16 1, n 17 1, decide (n 18 1 % 2 = 1), decide (n 18 1 / 2 % 2 = 1), n 20 2, n 22 2, n 24 4, n 28 4⟩

/-- Bytes `bs` written over `old` at offset `o`. -/
def overlay (old : List Byte) (o : Nat) (bs : List Byte) : List Byte :=
  (old.take o ++ bs ++ old.drop (o + bs.length)).take old.length

/-- QUEUE_DESCRIPTOR_WRITE by a host function, of bytes at an offset in the descriptor (R67, R68), stored as they are written. QERR is the device's
(R69). DEDUCED, assumption 47; DESIGN CHOICE, assumption 117. -/
def execQueueDescriptorWrite (ctl func loc off : Nat) (bs : List Byte) (s : State) : Host.Outcome State Fault Refusal :=
  onUnit (decide (ctl < 2 ∧ func < 33 ∧ loc < 32 ∧ off < 32)) s (fun d =>
    let q := hostQueue ctl func loc
    let x := d.queue q
    let y := descOfBytes (overlay x.bytes off bs)
    if x.enable then (if y.enable then d else d.setQueue q { x with enable := false })
    else (d.setQueue q { y with qerr := false }).drainAcks)

/-- The queue manager reads the record of a submit entry (R75): the entry and the record's bytes are those the host's memory held. A LEN below 32
leaves the rest of the waybill zero. DESIGN CHOICE, assumption 119. -/
def execSubmitEntryTake (ctl func loc : Nat) (entry record : List Byte) (s : State) : Host.Outcome State Fault Refusal :=
  onUnit (decide (ctl < 2 ∧ func < 33 ∧ loc < 16)) s (fun d =>
    let q := hostQueue ctl func loc
    let x := d.queue q
    let acks := d.queue (hostQueue ctl func (16 + loc % 8))
    let len := ofLe ((entry.drop 8).take 2)
    let bs := padTo len record
    let b := waybill (padTo 32 bs)
    let w : WaitRec := ⟨if len < 32 then padTo 32 bs else bs, none, decide (0 < d.allotment b.source), false, decide (len ≠ b.length),
      .host ctl func loc, d.now⟩
    if !x.serves 4 || decide (x.occ = 0) || acks.full || !d.hub.waiting.isEmpty || !(d.canTake w).1 then d
    else ((d.setQueue q { x with head := (x.head + 1) % 2 ^ 32 }).writeBack32 q x).receive w)

/-- A function's 32 queues are reset (R70). DEDUCED, assumption 84. -/
def Dev.resetFunction (d : Dev) (ctl func : Nat) : Dev :=
  (List.range 32).foldl (fun d i =>
    let q := hostQueue ctl func i
    d.setQueue q { d.queue q with enable := false, head := 0, tail := 0, qerr := false }) d

/-- A QM_KDB write (R72, R73). One for a queue that QERR has stopped has no effect. DESIGN CHOICE, assumption 118. -/
def Dev.kernelDoorbell (d : Dev) (v : Word) : Dev :=
  let q := fld v 0 13
  let x := d.queue q
  let isTail := !bit v 13
  if !(isKernelQueue q && decide (x.kind = 6)) then d.setRb rQmKqsel 63 true
  else if !x.enable || x.qerr then d
  else if x.accepts isTail (fld v 32 32) then
    let y := if isTail then { x with tail := fld v 32 32 } else { x with head := fld v 32 32 }
    let d := d.setQueue q y
    if x.occ < x.mark ∧ x.mark ≤ y.occ then d.edge x.vector else d
  else (d.setQueue q { x with qerr := true }).setRb rQmKqsel 63 true

/-- QM_KQSEL.RESET of queue QUEUE (R73): ignored for a queue that is not a kernel queue; cleared when done. -/
def Dev.kernelReset (d : Dev) : Dev :=
  let q := d.rf rQmKqsel 0 13
  let d := if isKernelQueue q && decide ((d.queue q).kind = 6) then
      d.setQueue q { d.queue q with head := 0, tail := 0, qerr := false } else d
  d.setRb rQmKqsel 62 false

/-- The fields of a selection word (R354); its reserved bits read as 0 (R8). -/
def selFields : Word := 0xFF0F3F

/-- A write of a journal queue's selection word (R354, R361). -/
def Dev.writeSel (d : Dev) (v : Nat) : Dev :=
  let q := d.rf rJnlQsel 0 13
  if !isJournalQueue q || decide (v / 16 % 4 = 3) || decide (8 < v / 256 % 16) then d.setRb rJnlQsel 63 true
  else (d.withJnl (fun j => { j with sels := SMap.set (fun _ => 0) j.sels q (word v &&& selFields).toNat })).purge

/-- JOURNAL_QUEUE_DELIVERY into queue `q` (R354). -/
def execJournalQueueDelivery (q : Nat) (s : State) : Host.Outcome State Fault Refusal :=
  onUnit (isJournalQueue q) s (fun d => d.deliver q)

end Sys2Proof.Machine
end

