-- ==== Sys2Proof/Machine/Float.lean ====
section
/-! DEFINITION. Binary and decimal floating values (R230, R236-R248): the four formats, exact results, and the one rounding of IEEE 754-2019. -/
namespace Sys2Proof.Machine

open Sys2Proof

/-- A format (R230): radix ten or two, precision, the exponents of the last digit of the least and the greatest value. -/
structure Fmt where
  dec : Bool
  prec : Nat
  qmin : Int
  qmax : Int
  deriving DecidableEq, Repr

/-- The four formats (R230, R247). -/
def fmtOf (f : BitVec 2) : Fmt :=
  if f = 0 then ⟨false, 24, -149, 104⟩
  else if f = 1 then ⟨false, 53, -1074, 971⟩
  else if f = 2 then ⟨true, 16, -398, 369⟩
  else ⟨true, 34, -6176, 6111⟩

/-- The radix. -/
def Fmt.radix (f : Fmt) : Nat := if f.dec then 10 else 2

/-- A floating value: a NaN with its sign, whether it signals, and its payload; an infinity; sign, coefficient and exponent. -/
inductive FVal
  | nan (sign signalling : Bool) (payload : Nat)
  | inf (sign : Bool)
  | fin (sign : Bool) (m : Nat) (e : Int)
  deriving DecidableEq, Repr

/-- The rounding directions of FPS.RM (R231). -/
inductive Rnd
  | even | away | zero | pos | neg
  deriving DecidableEq, Repr

def rndOf (n : Nat) : Rnd := if n = 0 then .even else if n = 1 then .away else if n = 2 then .zero else if n = 3 then .pos else .neg

/-- Raised flags in the bit order of FPS[4:0] (R231). -/
def fIO : BitVec 5 := 1
def fZD : BitVec 5 := 2
def fOF : BitVec 5 := 4
def fUF : BitVec 5 := 8
def fIX : BitVec 5 := 16

/-- A result and the exceptions it raises. -/
structure FRes where
  v : FVal
  raised : BitVec 5
  deriving DecidableEq, Repr

/-- Three digits as a densely packed group of ten bits. -/
def dpdEncode (v : Nat) : Nat :=
  let x := v / 100 % 10
  let y := v / 10 % 10
  let z := v % 10
  let hi := x % 2 * 128
  let mid := y % 2 * 16
  let lo := z % 2
  if x < 8 ∧ y < 8 ∧ z < 8 then x * 128 + y * 16 + z
  else if x < 8 ∧ y < 8 then x * 128 + y * 16 + 8 + lo
  else if x < 8 ∧ z < 8 then x * 128 + z / 2 * 32 + mid + 10 + lo
  else if y < 8 ∧ z < 8 then z / 2 * 256 + hi + y * 16 + 12 + lo
  else if x < 8 then x * 128 + 64 + mid + 14 + lo
  else if y < 8 then y / 2 * 256 + hi + 32 + mid + 14 + lo
  else if z < 8 then z / 2 * 256 + hi + mid + 14 + lo
  else hi + 96 + mid + 14 + lo

/-- The three digits of a densely packed group. -/
def dpdDecode (n : Nat) : Nat :=
  let pqr := n / 128 % 8
  let stu := n / 16 % 8
  let wxy := n % 8
  let r := pqr % 2
  let u := stu % 2
  let y := wxy % 2
  if n / 8 % 2 = 0 then pqr * 100 + stu * 10 + wxy
  else
    let wx := wxy / 2
    let st := stu / 2
    let pq := pqr / 2
    if wx = 0 then pqr * 100 + stu * 10 + 8 + y
    else if wx = 1 then pqr * 100 + (8 + u) * 10 + st * 2 + y
    else if wx = 2 then (8 + r) * 100 + stu * 10 + pq * 2 + y
    else if st = 0 then (8 + r) * 100 + (8 + u) * 10 + pq * 2 + y
    else if st = 1 then (8 + r) * 100 + (pq * 2 + u) * 10 + 8 + y
    else if st = 2 then pqr * 100 + (8 + u) * 10 + 8 + y
    else (8 + r) * 100 + (8 + u) * 10 + 8 + y

/-- `n` groups of digits packed and unpacked. -/
def dpdPack (v : Nat) : Nat → Nat
  | 0 => 0
  | n + 1 => dpdPack (v / 1000) n * 1024 + dpdEncode (v % 1000)
def dpdUnpack (v : Nat) : Nat → Nat
  | 0 => 0
  | n + 1 => dpdUnpack (v / 1024) n * 1000 + dpdDecode (v % 1024)

/-- A binary encoding with `w` exponent bits. -/
def binDecode (f : Fmt) (w n : Nat) : FVal :=
  let fr := n % 2 ^ (f.prec - 1)
  let ex := n / 2 ^ (f.prec - 1) % 2 ^ w
  let s := decide (n / 2 ^ (f.prec - 1 + w) % 2 = 1)
  if ex = 2 ^ w - 1 then
    if fr = 0 then .inf s else .nan s (decide (fr < 2 ^ (f.prec - 2))) (fr % 2 ^ (f.prec - 2))
  else if ex = 0 then .fin s fr f.qmin
  else .fin s (fr + 2 ^ (f.prec - 1)) (f.qmin + ex - 1)

def binEncode (f : Fmt) (w : Nat) (v : FVal) : Nat :=
  let unit := 2 ^ (f.prec - 1)
  match v with
  | .nan s sg p => s.toNat * unit * 2 ^ w + (2 ^ w - 1) * unit + (if sg then 0 else unit / 2) + p % (unit / 2)
  | .inf s => s.toNat * unit * 2 ^ w + (2 ^ w - 1) * unit
  | .fin s m e => s.toNat * unit * 2 ^ w +
    (if m < unit then m else ((e - f.qmin).toNat + 1) * unit + (m - unit))

/-- A decimal encoding with `w` exponent-continuation bits. -/
def decDecode (f : Fmt) (w n : Nat) : FVal :=
  let groups := (f.prec - 1) / 3
  let t := dpdUnpack (n % 1024 ^ groups) groups
  let cont := n / 1024 ^ groups % 2 ^ w
  let comb := n / (1024 ^ groups * 2 ^ w) % 32
  let s := decide (n / (1024 ^ groups * 2 ^ w * 32) % 2 = 1)
  if comb = 31 then .nan s (decide (cont / 2 ^ (w - 1) = 1)) t
  else if comb = 30 then .inf s
  else
    let (hi, d) := if comb / 8 = 3 then (comb / 2 % 4, 8 + comb % 2) else (comb / 8, comb % 8)
    .fin s (d * 10 ^ (f.prec - 1) + t) (f.qmin + (hi * 2 ^ w + cont : Nat))

def decEncode (f : Fmt) (w : Nat) (v : FVal) : Nat :=
  let groups := (f.prec - 1) / 3
  let top := 1024 ^ groups * 2 ^ w
  match v with
  | .nan s sg p => s.toNat * 32 * top + 31 * top + (if sg then 1024 ^ groups * 2 ^ (w - 1) else 0)
      + dpdPack (p % 10 ^ (f.prec - 1)) groups
  | .inf s => s.toNat * 32 * top + 30 * top
  | .fin s m e =>
    let x := (e - f.qmin).toNat
    let d := m / 10 ^ (f.prec - 1) % 10
    let hi := x / 2 ^ w % 4
    let comb := if d < 8 then hi * 8 + d else 24 + hi * 2 + (d - 8)
    s.toNat * 32 * top + comb * top + x % 2 ^ w * 1024 ^ groups + dpdPack (m % 10 ^ (f.prec - 1)) groups

/-- The value that an encoding of format `f` stands for, and the encoding of a value. -/
def fDecode (f : BitVec 2) (n : Nat) : FVal :=
  if f = 0 then binDecode (fmtOf f) 8 n else if f = 1 then binDecode (fmtOf f) 11 n
  else if f = 2 then decDecode (fmtOf f) 8 n else decDecode (fmtOf f) 12 n
def fEncode (f : BitVec 2) (v : FVal) : Nat :=
  if f = 0 then binEncode (fmtOf f) 8 v else if f = 1 then binEncode (fmtOf f) 11 v
  else if f = 2 then decEncode (fmtOf f) 8 v else decEncode (fmtOf f) 12 v

/-- R237: the default NaN. -/
def defaultNan : FVal := .nan false false 0

/-- A rounding of `n / d` of sign `s` to an integer, and whether it was inexact. -/
def roundInt (r : Rnd) (s : Bool) (n d : Nat) : Nat × Bool :=
  let q := n / d
  let k := n % d
  let up : Bool := match r with
    | .even => decide (d < 2 * k ∨ (2 * k = d ∧ q % 2 = 1))
    | .away => decide (d ≤ 2 * k)
    | .zero => false
    | .pos => decide (0 < k) && !s
    | .neg => decide (0 < k) && s
  (if up then q + 1 else q, decide (k ≠ 0))

/-- The count of digits of `n` in base ten, less one, found from an estimate `k` not above it. -/
def climb10 (n : Nat) : Nat → Nat → Nat
  | 0, k => k
  | f + 1, k => if 10 ^ (k + 1) ≤ n then climb10 n f (k + 1) else k

/-- The exponent of the leading digit of `n` in the radix of a format. -/
def leadExp (dec : Bool) (n : Nat) : Nat :=
  if dec then climb10 n (n.log2 / 30000 + 3) (n.log2 * 30102 / 100000) else n.log2

/-- `n / d` scaled by the radix to the power `k`. -/
def scaleTo (b : Nat) (n d : Nat) (k : Int) : Nat × Nat :=
  if 0 ≤ k then (n * b ^ k.toNat, d) else (n, d * b ^ (-k).toNat)

/-- The exponent of an exact decimal coefficient moved toward the preferred one (R236). -/
def prefer (f : Fmt) (pref : Int) : Nat → Nat → Int → Nat × Int
  | 0, m, e => (m, e)
  | k + 1, m, e =>
    if pref < e ∧ m * 10 < 10 ^ f.prec ∧ f.qmin < e then prefer f pref k (m * 10) (e - 1)
    else if e < pref ∧ m % 10 = 0 ∧ e < f.qmax then prefer f pref k (m / 10) (e + 1)
    else (m, e)

/-- An exponent brought into a format's range. -/
def clampExp (f : Fmt) (e : Int) : Int := if e < f.qmin then f.qmin else if f.qmax < e then f.qmax else e

/-- A zero with its preferred exponent. -/
def zeroOf (f : Fmt) (s : Bool) (pref : Int) : FVal := .fin s 0 (if f.dec then clampExp f pref else f.qmin)

/-- The greatest finite value, or infinity, that an overflow gives (R248). -/
def overflowVal (f : Fmt) (r : Rnd) (s : Bool) : FVal :=
  let toInf : Bool := match r with | .even => true | .away => true | .zero => false | .pos => !s | .neg => s
  if toInf then .inf s else .fin s (f.radix ^ f.prec - 1) f.qmax

/-- A coefficient that rounding carried to the next power of the radix. -/
def carryOut (f : Fmt) (m : Nat) (e : Int) : Nat × Int :=
  if m = f.radix ^ f.prec then (f.radix ^ (f.prec - 1), e + 1) else (m, e)

/-- R236: the non-zero value `n / d` × radix ^ `e` of sign `s`, rounded to format `f`; tininess is detected after rounding; an exact
decimal result takes the exponent nearest `pref`, an inexact one the smallest its cohort allows. -/
def roundTo (f : Fmt) (r : Rnd) (s : Bool) (n d : Nat) (e pref : Int) : FRes :=
  let b := f.radix
  let guess : Int := (leadExp f.dec n : Int) - leadExp f.dec d
  let g := scaleTo b n d (-guess)
  let lead : Int := e + (if g.2 ≤ g.1 then guess else guess - 1)
  let q0 := lead - (f.prec - 1 : Nat)
  let at_ (q : Int) : (Nat × Int) × Bool :=
    let x := scaleTo b n d (e - q)
    let m := roundInt r s x.1 x.2
    (carryOut f m.1 q, m.2)
  let free := at_ q0
  let tiny := decide (free.1.2 + (f.prec - 1 : Nat) < f.qmin + (f.prec - 1 : Nat))
  let x := at_ (if q0 < f.qmin then f.qmin else q0)
  let m := x.1.1
  let q := x.1.2
  if f.qmax < q then ⟨overflowVal f r s, fOF ||| fIX⟩
  else if x.2 then ⟨.fin s m q, fIX ||| (if tiny then fUF else 0)⟩
  else if f.dec then
    let p := prefer f pref (2 * f.prec) m q
    ⟨.fin s p.1 p.2, 0⟩
  else ⟨.fin s m q, 0⟩

/-- A NaN result made quiet (R238). -/
def quiet : FVal → FVal
  | .nan s _ p => .nan s false p
  | v => v
/-- Whether a value is a NaN, and whether it signals. -/
def FVal.isNan : FVal → Bool | .nan _ _ _ => true | _ => false
def FVal.signals : FVal → Bool | .nan _ sg _ => sg | _ => false
def FVal.isInf : FVal → Bool | .inf _ => true | _ => false
def FVal.isZero : FVal → Bool | .fin _ m _ => decide (m = 0) | _ => false
def FVal.sign : FVal → Bool | .nan s _ _ => s | .inf s => s | .fin s _ _ => s

/-- R238: the result for operands of which one is a NaN; none if none is. DEDUCED, assumption 21. -/
def nanResult (vs : List FVal) : Option FRes :=
  (vs.find? FVal.isNan).map (fun v => ⟨quiet v, if vs.any FVal.signals then fIO else 0⟩)

/-- IO with the default NaN. -/
def invalid : FRes := ⟨defaultNan, fIO⟩

/-- The exact sum of two finite values, rounded (R236, R237); an exact decimal zero has the preferred exponent. DEDUCED, assumption 112. -/
def addFin (f : Fmt) (r : Rnd) (s1 : Bool) (m1 : Nat) (e1 : Int) (s2 : Bool) (m2 : Nat) (e2 : Int) : FRes :=
  let e := if e1 < e2 then e1 else e2
  let x : Int := (m1 * f.radix ^ (e1 - e).toNat : Nat)
  let y : Int := (m2 * f.radix ^ (e2 - e).toNat : Nat)
  let t := (if s1 then -x else x) + (if s2 then -y else y)
  if t = 0 then ⟨zeroOf f (if s1 = s2 then s1 else decide (r = .neg)) e, 0⟩
  else roundTo f r (decide (t < 0)) t.natAbs 1 e e

/-- FADD, and FSUB with `sub` (R233, R237). -/
def fAdd (f : Fmt) (r : Rnd) (sub : Bool) (a b : FVal) : FRes :=
  match nanResult [a, b] with
  | some x => x
  | none =>
    match a, b with
    | .fin s m e, .fin s' m' e' => addFin f r s m e (s' != sub) m' e'
    | .inf s, .inf s' => if s = (s' != sub) then ⟨.inf s, 0⟩ else invalid
    | .inf s, _ => ⟨.inf s, 0⟩
    | _, .inf s' => ⟨.inf (s' != sub), 0⟩
    | _, _ => invalid

/-- FMUL (R233, R237). -/
def fMul (f : Fmt) (r : Rnd) (a b : FVal) : FRes :=
  match nanResult [a, b] with
  | some x => x
  | none =>
    let s := a.sign != b.sign
    match a, b with
    | .fin _ m e, .fin _ m' e' =>
      if m * m' = 0 then ⟨zeroOf f s (e + e'), 0⟩ else roundTo f r s (m * m') 1 (e + e') (e + e')
    | _, _ => if a.isZero || b.isZero then invalid else ⟨.inf s, 0⟩

/-- FDIV (R233, R237). -/
def fDiv (f : Fmt) (r : Rnd) (a b : FVal) : FRes :=
  match nanResult [a, b] with
  | some x => x
  | none =>
    let s := a.sign != b.sign
    match a, b with
    | .fin _ m e, .fin _ m' e' =>
      if m' = 0 then (if m = 0 then invalid else ⟨.inf s, fZD⟩)
      else if m = 0 then ⟨zeroOf f s (e - e'), 0⟩
      else roundTo f r s m m' (e - e') (e - e')
    | .fin _ _ _, _ => ⟨zeroOf f s f.qmin, 0⟩
    | _, .fin _ _ _ => ⟨.inf s, 0⟩
    | _, _ => invalid

/-- The integer square root, bit by bit. -/
def isqrt (n : Nat) : Nat → Nat → Nat
  | 0, x => x
  | k + 1, x => isqrt n k (if (x + 2 ^ k) * (x + 2 ^ k) ≤ n then x + 2 ^ k else x)

/-- FSQRT (R233, R237): a root that is not exact is known to more digits than decide its rounding. -/
def fSqrt (f : Fmt) (r : Rnd) (a : FVal) : FRes :=
  match nanResult [a] with
  | some x => x
  | none =>
    match a with
    | .fin s m e =>
      let pref := e / 2
      if m = 0 then ⟨zeroOf f s pref, 0⟩
      else if s then invalid
      else
        let odd := e % 2
        let k : Nat := f.prec + 3
        let n := m * f.radix ^ odd.toNat * f.radix ^ (2 * k)
        let x := isqrt n (n.log2 / 2 + 1) 0
        let e' := (e - odd) / 2 - k
        if x * x = n then roundTo f r false x 1 e' pref else roundTo f r false (2 * x + 1) 2 e' pref
    | .inf s => if s then invalid else ⟨.inf false, 0⟩
    | _ => invalid

/-- FMA (R233, R237): one rounding. -/
def fFma (f : Fmt) (r : Rnd) (a b c : FVal) : FRes :=
  let zeroInf := (a.isZero && b.isInf) || (a.isInf && b.isZero)
  if zeroInf then (if c.isNan then ⟨quiet c, fIO⟩ else invalid)
  else match nanResult [a, b, c] with
    | some x => x
    | none =>
      let s := a.sign != b.sign
      match a, b, c with
      | .fin _ m e, .fin _ m' e', .fin s2 m2 e2 => addFin f r s (m * m') (e + e') s2 m2 e2
      | .fin _ _ _, .fin _ _ _, .inf s2 => ⟨.inf s2, 0⟩
      | _, _, .inf s2 => if s = s2 then ⟨.inf s, 0⟩ else invalid
      | _, _, _ => ⟨.inf s, 0⟩

/-- How two values that are no NaN compare: the sign of the exact difference. -/
def fOrder (radix : Nat) (a b : FVal) : Int :=
  let num (v : FVal) (e : Int) : Int :=
    match v with
    | .fin s m e' => let x : Int := (m * radix ^ (e' - e).toNat : Nat); if s then -x else x
    | _ => 0
  match a, b with
  | .fin _ _ e, .fin _ _ e' => let k := if e < e' then e else e'; (num a k - num b k).sign
  | .inf s, .inf s' => if s = s' then 0 else if s then -1 else 1
  | .inf s, _ => if s then -1 else 1
  | _, .inf s' => if s' then 1 else -1
  | _, _ => 0

/-- FQUANT (R241). -/
def fQuant (f : Fmt) (r : Rnd) (a b : FVal) : FRes :=
  match nanResult [a, b] with
  | some x => x
  | none =>
    match a, b with
    | .fin s m e, .fin _ _ e' =>
      let x := scaleTo 10 m 1 (e - e')
      let q := roundInt r s x.1 x.2
      if 10 ^ f.prec ≤ q.1 then invalid else ⟨.fin s q.1 e', if q.2 then fIX else 0⟩
    | .inf s, .inf _ => ⟨.inf s, 0⟩
    | _, _ => invalid

/-- FCVT between formats (R238, R240). -/
def fConvert (src dst : BitVec 2) (r : Rnd) (a : FVal) : FRes :=
  let fs := fmtOf src
  let fd := fmtOf dst
  match a with
  | .nan s sg p =>
    let flag := if sg then fIO else 0
    if fs.dec ≠ fd.dec then ⟨defaultNan, flag⟩
    else
      let unit := if fs.dec then 10 else 2
      let ws := if fs.dec then fs.prec - 1 else fs.prec - 2
      let wd := if fs.dec then fd.prec - 1 else fd.prec - 2
      ⟨.nan s false (if ws ≤ wd then p * unit ^ (wd - ws) else p / unit ^ (ws - wd)), flag⟩
  | .inf s => ⟨.inf s, 0⟩
  | .fin s m e =>
    let pref := if fs.dec then e else 0
    if m = 0 then ⟨zeroOf fd s pref, 0⟩
    else if fs.dec = fd.dec then roundTo fd r s m 1 e pref
    else
      let x := scaleTo fs.radix m 1 e
      roundTo fd r s x.1 x.2 0 pref

/-- A finite value as a rounded integer (R240). -/
def fToInt (radix : Nat) (r : Rnd) (s : Bool) (m : Nat) (e : Int) : Int × Bool :=
  let x := scaleTo radix m 1 e
  let q := roundInt r s x.1 x.2
  (if s then -(q.1 : Int) else q.1, q.2)

/-- FCVTI (R240): the integer as a 64-bit word. -/
def fToWord (f : Fmt) (r : Rnd) (u : Bool) (a : FVal) : Word × BitVec 5 :=
  let lo : Int := if u then 0 else -(2 ^ 63)
  let hi : Int := if u then 2 ^ 64 - 1 else 2 ^ 63 - 1
  match a with
  | .nan _ _ _ => (0, fIO)
  | .inf s => (BitVec.ofInt 64 (if s then lo else hi), fIO)
  | .fin s m e =>
    let x := fToInt f.radix r s m e
    if x.1 < lo then (BitVec.ofInt 64 lo, fIO)
    else if hi < x.1 then (BitVec.ofInt 64 hi, fIO)
    else (BitVec.ofInt 64 x.1, if x.2 then fIX else 0)

/-- FCVIF (R240). -/
def fFromInt (f : Fmt) (r : Rnd) (x : Int) : FRes :=
  if x = 0 then ⟨zeroOf f false 0, 0⟩ else roundTo f r (decide (x < 0)) x.natAbs 1 0 0

/-- FLDP (R243): coefficient, exponent and sign of a packed field. -/
def fFromPacked (f : Fmt) (r : Rnd) (s : Bool) (m : Nat) (e : Int) : FRes :=
  if m = 0 then ⟨zeroOf f s e, 0⟩ else roundTo f r s m 1 e e

/-- FSTP (R244): the value in units of 10 ^ `e`, rounded to an integer; none for a NaN or an infinity. -/
def fToPacked (r : Rnd) (e : Int) (a : FVal) : Option (Int × Bool) :=
  match a with
  | .fin s m e' => some (fToInt 10 r s m (e' - e))
  | _ => none

end Sys2Proof.Machine
end

