-- ==== Sys2Proof/Machine/Floating.lean ====
section
/-! DEFINITION. The floating instructions (chapter 7) and the completion of a floating operation (R245). A result is written when its
instruction issues; the exceptions it raises act on FPS when the operation completes. -/
namespace Sys2Proof.Machine

open Sys2Proof

/-- The second register of a decimal128 pair (R230). -/
def oddOf (f : FReg) : FReg := f + 1

/-- A floating operand in format `fmt` (R230); none if it carries a poison mark. -/
def Thread.fOperand (t : Thread) (fmt : BitVec 2) (f : FReg) : Option FVal :=
  let a := t.freg f
  if fmt = 3 then
    let b := t.freg (oddOf f)
    if a.poison || b.poison then none else some (fDecode fmt (a.val.toNat + b.val.toNat * 2 ^ 64))
  else if a.poison then none
  else some (fDecode fmt (if fmt = 0 then a.val.toNat % 2 ^ 32 else a.val.toNat))

/-- An encoding written to a floating register, or to a pair (R230). -/
def Thread.fWrite (t : Thread) (fmt : BitVec 2) (f : FReg) (n : Nat) : Thread :=
  if fmt = 3 then (t.setFreg f ⟨word (n % 2 ^ 64), false⟩).setFreg (oddOf f) ⟨word (n / 2 ^ 64), false⟩
  else t.setFreg f ⟨word n, false⟩

/-- A floating destination poisoned with an unspecified value (R251); both registers of a pair. -/
def Ctx.poisonF (c : Ctx) (fmt : BitVec 2) (f : FReg) : Ctx :=
  let x := c.d.draw
  let c := (c.withD x.2).withT (c.t.setFreg f ⟨x.1, true⟩)
  if fmt = 3 then
    let y := c.d.draw
    (c.withD y.2).withT (c.t.setFreg (oddOf f) ⟨y.1, true⟩)
  else c

/-- A floating operation has issued (R245). -/
def Ctx.queueFp (c : Ctx) (raised : BitVec 5) : Ctx :=
  c.withT { c.t with fpOut := c.t.fpOut ++ [⟨c.t.pc, raised⟩] }

/-- The rounding direction in force. -/
def Thread.rnd (t : Thread) : Rnd := rndOf (fld t.fps 16 3)

/-- A floating arithmetic instruction of major 0x3A (R233, R251): ILLEGAL, code 2, unless its fields are allowed. `f` computes from the
operands. -/
def fArith (g minor : Nat) (fmt : BitVec 2) (fd fa fb fc : FReg) (srcs : List FReg)
    (f : Rnd → List FVal → FRes) (dst : BitVec 2) (s : State) : Host.Outcome State Fault Refusal :=
  runThread g s [] false (fun c =>
    if !floatFieldsOk minor fd.toNat fa.toNat fb.toNat fc.toNat fmt.toNat then illegal c 2 0x3A
    else match srcs.mapM (fun r => c.t.fOperand fmt r) with
      | none => seq4 (c.poisonF dst fd)
      | some vs =>
        let r := f c.t.rnd vs
        seq4 ((c.withT (c.t.fWrite dst fd (fEncode dst r.v))).queueFp r.raised))

/-- A two-operand operation on its operands. -/
def op2 (f : Rnd → FVal → FVal → FRes) (r : Rnd) (vs : List FVal) : FRes :=
  match vs with | [a, b] => f r a b | _ => invalid

/-- FADD (R233). -/
def execFadd (g : Nat) (fmt : BitVec 2) (fd fa fb : FReg) (s : State) : Host.Outcome State Fault Refusal :=
  fArith g 0 fmt fd fa fb 0 [fa, fb] (op2 (fun r => fAdd (fmtOf fmt) r false)) fmt s
/-- FSUB (R233). -/
def execFsub (g : Nat) (fmt : BitVec 2) (fd fa fb : FReg) (s : State) : Host.Outcome State Fault Refusal :=
  fArith g 1 fmt fd fa fb 0 [fa, fb] (op2 (fun r => fAdd (fmtOf fmt) r true)) fmt s
/-- FMUL (R233). -/
def execFmul (g : Nat) (fmt : BitVec 2) (fd fa fb : FReg) (s : State) : Host.Outcome State Fault Refusal :=
  fArith g 2 fmt fd fa fb 0 [fa, fb] (op2 (fun r => fMul (fmtOf fmt) r)) fmt s
/-- FDIV (R233). -/
def execFdiv (g : Nat) (fmt : BitVec 2) (fd fa fb : FReg) (s : State) : Host.Outcome State Fault Refusal :=
  fArith g 3 fmt fd fa fb 0 [fa, fb] (op2 (fun r => fDiv (fmtOf fmt) r)) fmt s
/-- FSQRT (R233). -/
def execFsqrt (g : Nat) (fmt : BitVec 2) (fd fa : FReg) (s : State) : Host.Outcome State Fault Refusal :=
  fArith g 4 fmt fd fa 0 0 [fa] (fun r vs => match vs with | [a] => fSqrt (fmtOf fmt) r a | _ => invalid) fmt s
/-- FMA (R233). -/
def execFma (g : Nat) (fmt : BitVec 2) (fd fa fb fc : FReg) (s : State) : Host.Outcome State Fault Refusal :=
  fArith g 5 fmt fd fa fb fc [fa, fb, fc]
    (fun r vs => match vs with | [a, b, c] => fFma (fmtOf fmt) r a b c | _ => invalid) fmt s
/-- FQUANT (R241): a binary format is ILLEGAL, code 2. -/
def execFquant (g : Nat) (fmt : BitVec 2) (fd fa fb : FReg) (s : State) : Host.Outcome State Fault Refusal :=
  fArith g 10 fmt fd fa fb 0 [fa, fb] (op2 (fun r => fQuant (fmtOf fmt) r)) fmt s
/-- FCVT (R240). -/
def execFcvt (g : Nat) (fmt dst : BitVec 2) (fd fa : FReg) (s : State) : Host.Outcome State Fault Refusal :=
  fArith g 11 fmt fd fa 0 (BitVec.ofNat 4 (dst.toNat * 4)) [fa]
    (fun r vs => match vs with | [a] => fConvert fmt dst r a | _ => invalid) dst s

/-- The flags of FCMP (R239). -/
def fCmpFlags (radix : Nat) (a b : FVal) : Nzcv :=
  if a.isNan || b.isNan then ⟨false, false, true, true⟩
  else
    let k := fOrder radix a b
    ⟨decide (k < 0), decide (k = 0), decide (0 ≤ k), false⟩

/-- FCMP (R239). -/
def execFcmp (g : Nat) (fmt : BitVec 2) (fa fb : FReg) (s : State) : Host.Outcome State Fault Refusal :=
  runThread g s [] true (fun c =>
    if !floatFieldsOk 6 0 fa.toNat fb.toNat 0 fmt.toNat then illegal c 2 0x3A
    else match c.t.fOperand fmt fa, c.t.fOperand fmt fb with
      | some a, some b =>
        seq4 ((c.setFlags (fCmpFlags (fmtOf fmt).radix a b)).queueFp (if a.signals || b.signals then fIO else 0))
      | _, _ => seq4 c.poisonFl)

/-- The raw encoding of an operand; none if it carries a poison mark. -/
def Thread.fBits (t : Thread) (fmt : BitVec 2) (f : FReg) : Option Nat :=
  let a := t.freg f
  if fmt = 3 then
    let b := t.freg (oddOf f)
    if a.poison || b.poison then none else some (a.val.toNat + b.val.toNat * 2 ^ 64)
  else if a.poison then none
  else some (if fmt = 0 then a.val.toNat % 2 ^ 32 else a.val.toNat)

/-- The weight of a format's sign bit. -/
def signUnit (fmt : BitVec 2) : Nat := if fmt = 0 then 2 ^ 31 else if fmt = 3 then 2 ^ 127 else 2 ^ 63

/-- FMOV, FNEG and FABS (R233): the sign alone changes, no flag is raised and no NaN made quiet. -/
def fSignOp (g minor : Nat) (fmt : BitVec 2) (fd fa : FReg) (f : Nat → Nat) (s : State) : Host.Outcome State Fault Refusal :=
  runThread g s [] false (fun c =>
    if !floatFieldsOk minor fd.toNat fa.toNat 0 0 fmt.toNat then illegal c 2 0x3A
    else match c.t.fBits fmt fa with
      | none => seq4 (c.poisonF fmt fd)
      | some n => seq4 (c.withT (c.t.fWrite fmt fd (f n))))

/-- FMOV (R233). -/
def execFmov (g : Nat) (fmt : BitVec 2) (fd fa : FReg) (s : State) : Host.Outcome State Fault Refusal :=
  fSignOp g 7 fmt fd fa id s
/-- FNEG (R233). -/
def execFneg (g : Nat) (fmt : BitVec 2) (fd fa : FReg) (s : State) : Host.Outcome State Fault Refusal :=
  fSignOp g 8 fmt fd fa (fun n => if n / signUnit fmt % 2 = 1 then n - signUnit fmt else n + signUnit fmt) s
/-- FABS (R233). -/
def execFabs (g : Nat) (fmt : BitVec 2) (fd fa : FReg) (s : State) : Host.Outcome State Fault Refusal :=
  fSignOp g 9 fmt fd fa (fun n => n % signUnit fmt) s

/-- FCVTI (R234, R240). -/
def execFcvti (g : Nat) (r : GReg) (f : FReg) (fmt : BitVec 2) (u : Bool) (s : State) : Host.Outcome State Fault Refusal :=
  runThread g s [r] false (fun c =>
    if fmt = 3 ∧ f.toNat % 2 = 1 then illegal c 2 0x3B
    else match c.t.fOperand fmt f with
      | none => seq4 (c.poisonR r)
      | some a =>
        let x := fToWord (fmtOf fmt) c.t.rnd u a
        seq4 ((c.setR r ⟨x.1, false⟩).queueFp x.2))

/-- FCVIF (R234, R240). -/
def execFcvif (g : Nat) (r : GReg) (f : FReg) (fmt : BitVec 2) (u : Bool) (s : State) : Host.Outcome State Fault Refusal :=
  runThread g s [r] false (fun c =>
    if fmt = 3 ∧ f.toNat % 2 = 1 then illegal c 2 0x3B
    else if (c.r r).poison then seq4 (c.poisonF fmt f)
    else
      let x := fFromInt (fmtOf fmt) c.t.rnd (if u then ((c.r r).val.toNat : Int) else (c.r r).val.toInt)
      seq4 ((c.withT (c.t.fWrite fmt f (fEncode fmt x.v))).queueFp x.raised))

/-- FMVFX (R234): 64 bits copied, with the mark (R251). -/
def execFmvfx (g : Nat) (r : GReg) (f : FReg) (s : State) : Host.Outcome State Fault Refusal :=
  runThread g s [r] false (fun c => seq4 (c.setR r (c.t.freg f)))
/-- FMVXF (R234): 64 bits copied, with the mark (R251). -/
def execFmvxf (g : Nat) (r : GReg) (f : FReg) (s : State) : Host.Outcome State Fault Refusal :=
  runThread g s [r] false (fun c => seq4 (c.withT (c.t.setFreg f (c.r r))))

/-- The format that q of FLDP and FSTP selects (R242). -/
def packedFmt (q : Bool) : BitVec 2 := if q then 3 else 2

/-- The sign of a valid packed field. -/
def packedMinus (bs : List Byte) : Bool :=
  let s := nibble bs (2 * bs.length - 1)
  decide (s = 0xB ∨ s = 0xD)

/-- FLDP (R242, R243). -/
def execFldp (g : Nat) (f : FReg) (q : Bool) (ra : GReg) (l : BitVec 5) (e : BitVec 10) (s : State) :
    Host.Outcome State Fault Refusal :=
  runThread g s [ra] false (fun c =>
    if q ∧ f.toNat % 2 = 1 then illegal c 2 0x3C
    else match c.base ra with
      | .error x => .error x
      | .ok b => match c.load b.toNat (l.toNat + 1) with
        | .error x => .error x
        | .ok (bs, c) =>
          if anyPoison bs then seq4 (c.poisonF (packedFmt q) f)
          else match packedValue (vals bs) 1 with
            | .error dtl => raise c 6 dtl
            | .ok v =>
              let x := fFromPacked (fmtOf (packedFmt q)) c.t.rnd (packedMinus (vals bs)) v.natAbs e.toInt
              seq4 ((c.withT (c.t.fWrite (packedFmt q) f (fEncode (packedFmt q) x.v))).queueFp x.raised))

/-- FSTP (R242, R244): a value that does not fit was rounded first, and its IX is raised beside the IO. -/
def execFstp (g : Nat) (f : FReg) (q : Bool) (ra : GReg) (l : BitVec 5) (e : BitVec 10) (s : State) :
    Host.Outcome State Fault Refusal :=
  runThread g s [ra] false (fun c =>
    if q ∧ f.toNat % 2 = 1 then illegal c 2 0x3C
    else match c.base ra with
      | .error x => .error x
      | .ok b =>
        let n := l.toNat + 1
        match c.check .store b.toNat n with
        | .error x => .error x
        | .ok c => match c.t.fOperand (packedFmt q) f with
          | none => match poisonStore c b.toNat n with
            | .error x => .error x
            | .ok c => seq4 c
          | some a => match fToPacked c.t.rnd e.toInt a with
            | none => seq4 (c.queueFp fIO)
            | some (v, ix) =>
              if !fits v (2 * n - 1) then seq4 (c.queueFp (fIO ||| (if ix then fIX else 0)))
              else match decWrite c b.toNat n v with
                | .error x => .error x
                | .ok c => seq4 (c.queueFp (if ix then fIX else 0)))

/-- R245: outstanding operation `k`, counted in program order, completes. DEDUCED, assumption 20. -/
def completeFp (t : Thread) (k : Nat) (o : FpOp) : Thread :=
  let r := o.raised.toNat
  let fps := t.fps ||| word r
  let trap := r &&& fld t.fps 8 5
  let t := { t with fps := fps, fpOut := t.fpOut.eraseIdx k }
  if trap = 0 then { t with fpBefore := if k < t.fpBefore then t.fpBefore - 1 else t.fpBefore }
  else
    let first := !bit fps 19 || decide (k < t.fpBefore)
    { t with
      fps := setFld (setBit fps 19 true) 20 5 (fld fps 20 5 ||| trap)
      fpepc := if first then o.pc &&& 0xFFFFFFFFFFFF#64 else t.fpepc
      fpBefore := if first then k else t.fpBefore }

end Sys2Proof.Machine
end

