-- ==== Sys2Proof/Machine/Replica.lean ====
section
/-! DEFINITION. Shadow copies (R373-R377): state units, the check of an epoch's digest, applying its units, and seeding holders (R385). -/
namespace Sys2Proof.Machine

open Sys2Proof

/-- Field of `n` bytes at offset `o` of a unit, little-endian. -/
def ufld (bs : List Byte) (o n : Nat) : Nat := ofLe ((bs.drop o).take n)

/-- A LINE unit (R376). -/
def lineUnit (op origin acct : Nat) : List Byte := leBytes 1 1 ++ leBytes 1 op ++ leBytes 1 origin ++ leBytes 5 0 ++ leBytes 8 acct ++ leBytes 48 0
/-- A WINDOW unit: part `p` of a source's window, with the seen bits of records that have a journal entry (R376). -/
def windowUnit (source p : Nat) (w : Win) : List Byte :=
  leBytes 1 2 ++ leBytes 1 p ++ leBytes 2 source ++ leBytes 6 w.h ++ leBytes 22 0 ++
  (List.range 32).map (fun k => BitVec.ofNat 8 (((List.range 8).map (fun j =>
    let s := w.h + 256 * p + 8 * k + j
    if 65535 ≤ s ∧ w.bit (s - 65535) = 2 then 2 ^ j else 0)).sum))
/-- A RESUME unit of the device's last committed seal (R376). -/
def Dev.resumeUnit (d : Dev) : List Byte :=
  let s := d.jnl.lastSeal
  leBytes 1 3 ++ leBytes 1 d.tt.ringId ++ leBytes 6 0 ++
  (if s.isEmpty then leBytes 16 0 ++ leBytes 8 0 ++ d.digest0 d.tt.ringId
   else leBytes 8 (ufld s 8 8) ++ leBytes 8 (ufld s 0 8 % 2 ^ 62) ++ leBytes 8 0 ++ s.drop 32)
/-- A SEEDEND unit (R376). -/
def Dev.seedEnd (d : Dev) (n : Nat) : List Byte := leBytes 1 4 ++ leBytes 1 d.tt.ringId ++ leBytes 6 0 ++ leBytes 8 n ++ leBytes 48 0

/-- The parts of a window that are sent: part 0, and each that holds a bit (R376). -/
def windowUnits (source : Nat) (w : Win) : List (List Byte) :=
  ((List.range 256).map (fun p => (p, windowUnit source p w))).filterMap (fun x =>
    if x.1 = 0 ∨ (x.2.drop 32).any (fun b => b ≠ 0) then some x.2 else none)

/-- Shadow replica of origin `o`, and the device with it changed. -/
def Dev.replica (d : Dev) (o : Nat) : Replica := SMap.get (fun _ => Replica.reset) d.ring.replicas o
def Dev.setReplica (d : Dev) (o : Nat) (x : Replica) : Dev :=
  d.withRing (fun r => { r with replicas := SMap.set (fun _ => Replica.reset) r.replicas o x })

/-- A free line of the shadow pool (R377). -/
def Dev.poolFree (d : Dev) : Option Nat :=
  ((List.range d.tt.poolLines).map (fun i => d.tt.poolBase + 64 * i)).find? (fun a => !d.ring.poolUsed.contains a)

/-- The first slot with VALID 0 in the probe order of an account (R330, R377). DEDUCED, assumption 102. -/
def Dev.freeSlot (d : Dev) (acct : Word) : Option Nat :=
  let h := d.acctHash acct
  let b := d.rf rPeDir 56 4
  ((List.range (d.rf rPeDir 60 4)).flatMap (fun p => (List.range 4).map (fun s =>
    d.bucket (fld h 0 16) ((fld h 16 b + p) % 2 ^ b) + 16 * s))).find? (fun a =>
      let x := d.slotAt a
      !x.2.2 && decide (x.2.1 % 2 = 0))

/-- The line of an account found in the directory, if any. -/
def Dev.lineFor (d : Dev) (acct : Nat) : Option (Nat × Nat) :=
  match d.dirFind (word acct) with
  | .slot sl => some (sl, (d.slotAt sl).2.1 % 2 ^ 48 / 64 * 64)
  | _ => none

/-- LINE CREATE, SET and REMOVE at a holder (R377): the device, and whether the holder goes on. A SET whose account is not found is skipped, which is
a miss where the seed has ended (`seeded`). -/
def Dev.applyLine (d : Dev) (seeded : Bool) (op acct : Nat) (img : List Byte) : Dev × Bool :=
  if op = 1 then
    match d.lineFor acct with
    | some (_, a) => (d.writeBytes a (clean img), true)
    | none =>
      match d.poolFree with
      | none => (d.setRb rLlErr 7 true, false)
      | some a =>
        match d.freeSlot (word acct) with
        | none => (d.setRb rLlErr 8 true, false)
        | some sl =>
          let d := (d.writeBytes a (clean img)).withRing (fun r => { r with poolUsed := r.poolUsed ++ [a] })
          (d.writeBytes sl (clean (leBytes 8 acct ++ leBytes 8 (a + 1))), true)
  else
    match d.lineFor acct with
    | none => (if op = 2 && seeded then d.setRb rLlErr 9 true else d, true)
    | some (sl, a) =>
      if op = 2 then (d.writeBytes (a + 16) (clean ((img.drop 16).take 24)), true)
      else if op = 3 then
        let w := (d.slotAt sl).2.1
        let d := d.writeBytes (sl + 8) (clean (leBytes 8 (w - w % 2)))
        (d.withRing (fun r => { r with poolUsed := r.poolUsed.filter (fun x => x ≠ a) }), true)
      else (d, true)

/-- Bits of a WINDOW unit merged into a window (R377). -/
def mergeUnit (w : Win) (u : List Byte) : Win :=
  let h := ufld u 4 6
  let p := ufld u 1 1
  let bits := (List.range 256).filter (fun i => ((u.getD (32 + i / 8) 0)).getLsbD (i % 8))
  w.merge ⟨h, bits.foldl (fun m i => if 65535 ≤ h + 256 * p + i then SMap.set (fun _ => 0) m (h + 256 * p + i - 65535) 2 else m) []⟩

/-- A journal entry at a holder of origin `o` (R377). -/
def Dev.applyEntry (d : Dev) (o epoch : Nat) (u : List Byte) : Dev :=
  let acct := ufld u 8 8
  let cft := ufld u 56 4
  let d := if cft / 2 ^ 28 % 2 = 1 then d
    else match d.lineFor acct with
      | none => if (d.replica o).seeded then d.setRb rLlErr 9 true else d
      | some (_, a) =>
        let n := ofLe (vals (d.readBytes (a + 48) 8))
        (d.writeBytes a (clean ((u.drop 32).take 16))).writeBytes (a + 40) (clean (leBytes 8 (ufld u 0 8) ++ leBytes 8 (n + 1) ++ leBytes 8 epoch))
  if cft / 2 ^ 29 % 2 = 1 then d
  else
    let x := d.replica o
    let s := ufld u 48 2
    let w := SMap.get (fun _ => Win.reset) x.wins s
    d.setReplica o { x with wins := SMap.set (fun _ => Win.reset) x.wins s (w.put (ufld u 50 6) 2) }

/-- A predecessor's unit offered to the host queues that choose it (R354). -/
def Dev.offerPred (d : Dev) (src : Nat) (u : JUnit) : Dev :=
  if d.jqueues.any (fun q => d.selects (d.sel q) src u) then
    d.withJnl (fun j => { j with preds := j.preds ++ [⟨src, { u with id := j.nextId }, false⟩], nextId := j.nextId + 1 })
  else d

/-- A predecessor's epochs up to `e` are known to be committed (R354). -/
def Dev.predCommitted (d : Dev) (src e : Nat) : Dev :=
  d.withJnl (fun j => { j with preds := j.preds.map (fun p => if p.src = src ∧ p.unit.epoch ≤ e then { p with committed := true } else p) })

/-- The units of one epoch applied to the shadow copies in stream order (R377): the device, and whether the holder goes on. -/
def Dev.applyUnits (o rank epoch : Nat) : Dev → List (Bool × List Byte) → Dev × Bool
  | d, [] => (d, true)
  | d, (false, u) :: rest =>
    let k := ufld u 0 8 / 2 ^ 62
    let ju : JUnit := ⟨0, k, ufld u 0 8 % 2 ^ 62, epoch, u, true, [], [], false, false⟩
    if k = 0 then Dev.applyUnits o rank epoch ((d.applyEntry o epoch u).offerPred rank ju) rest
    else if k = 1 then Dev.applyUnits o rank epoch ((d.setReplica o { d.replica o with sealBytes := u }).offerPred rank ju) rest
    else
      let e := ufld u 8 8
      Dev.applyUnits o rank epoch (((d.setReplica o { d.replica o with notice := u, committed := e }).predCommitted rank e).offerPred rank { ju with epoch := e }) rest
  | d, [(true, u)] =>
    if ufld u 0 1 = 1 then d.applyLine (d.replica o).seeded (ufld u 1 1) (ufld u 8 8) []
    else if ufld u 0 1 = 2 then
      let x := d.replica o
      let s := ufld u 2 2
      (d.setReplica o { x with wins := SMap.set (fun _ => Win.reset) x.wins s (mergeUnit (SMap.get (fun _ => Win.reset) x.wins s) u) }, true)
    else if ufld u 0 1 = 4 then (d.setReplica o { d.replica o with seeded := true }, true)
    else (d, true)
  | d, (true, u) :: (j, v) :: rest =>
    if ufld u 0 1 = 1 then
      if ufld u 1 1 = 3 then
        let r := d.applyLine (d.replica o).seeded 3 (ufld u 8 8) []
        if r.2 then Dev.applyUnits o rank epoch r.1 ((j, v) :: rest) else r
      else
        let r := d.applyLine (d.replica o).seeded (ufld u 1 1) (ufld u 8 8) v
        if r.2 then Dev.applyUnits o rank epoch r.1 rest else r
    else if ufld u 0 1 = 2 then
      let x := d.replica o
      let s := ufld u 2 2
      Dev.applyUnits o rank epoch (d.setReplica o { x with
        wins := SMap.set (fun _ => Win.reset) x.wins s (mergeUnit (SMap.get (fun _ => Win.reset) x.wins s) u) }) ((j, v) :: rest)
    else if ufld u 0 1 = 4 then Dev.applyUnits o rank epoch (d.setReplica o { d.replica o with seeded := true }) ((j, v) :: rest)
    else Dev.applyUnits o rank epoch d ((j, v) :: rest)

/-- The digest that an epoch's units chain to (R349, R375): a run seal chains each epoch it covers. -/
def chainDigest (dg : List Byte) (entries sl : List Byte) : List Byte :=
  let run := ufld sl 30 2
  if run = 0 then shake256 (dg ++ entries ++ sl.take 32)
  else (List.range (run + 1)).foldl (fun dg i =>
    shake256 (dg ++ sl.take 8 ++ leBytes 8 (ufld sl 8 8 - run + i) ++ (sl.drop 16).take 14 ++ leBytes 2 i)) dg

/-- The digest before an epoch's units (R351, R376): that of a RESUME unit of the epoch just before, the replica's own, or D_0. -/
def Dev.baseDigest (d : Dev) (o : Nat) (us : List (Bool × List Byte)) (sl : List Byte) : List Byte :=
  let x := d.replica o
  match us.find? (fun u => u.1 && decide (ufld u.2 0 1 = 3 ∧ ufld u.2 8 8 + 1 + ufld sl 30 2 = ufld sl 8 8)) with
  | some u => u.2.drop 32
  | none => if x.digest.isEmpty then d.digest0 o else x.digest

/-- An EPOCHACK unit (R372). -/
def ackUnit (o holder rank epoch sealSeq : Nat) : List Byte :=
  leBytes 1 o ++ leBytes 1 holder ++ leBytes 1 rank ++ leBytes 5 0 ++ leBytes 8 epoch ++ leBytes 8 sealSeq ++ leBytes 40 0

/-- The sl of an epoch of origin `o` arrives (R375, R377): its digest is checked, its units are applied, EPOCHACK goes West. -/
def Dev.closeEpoch (d : Dev) (o rank : Nat) (sl : List Byte) : Dev :=
  let x := d.replica o
  let us := x.units ++ [(false, sl)]
  let entries := ((x.units.filter (fun u => !u.1 && decide (ufld u.2 0 8 / 2 ^ 62 = 0))).map (fun u => u.2)).flatten
  let dg := chainDigest (d.baseDigest o us sl) entries sl
  let x := { x with units := [], mode := none }
  if dg ≠ sl.drop 32 then (d.setReplica o { x with broken := true }).setRb rLlErr 6 true
  else
    let e := ufld sl 8 8
    let keep := if rank = 1 then x.tail ++ [⟨e, us⟩] else x.tail
    let r := Dev.applyUnits o rank e (d.setReplica o { x with digest := dg, epoch := e, tail := keep }) us
    if r.2 then r.1.sendFrame false (r.1.newFrame 3 0 0 [ackUnit o r.1.tt.ringId rank e (ufld sl 0 8 % 2 ^ 62)])
    else r.1.setReplica o { r.1.replica o with broken := true }

/-- One unit of origin `o` at a member (R373, R375, R377): the device, and whether the unit belongs to an epoch that it relays. -/
def Dev.takeUnit (d : Dev) (o rank : Nat) (isState : Bool) (u : List Byte) : Dev × Bool :=
  let x := d.replica o
  let k := ufld u 0 8 / 2 ^ 62
  let seq := ufld u 0 8 % 2 ^ 62
  let old := !isState && decide (k < 2) && (match x.next with | some n => decide (seq < n) | none => false)
  let mode := x.mode.getD (decide (d.ring.state = .member))
  if old then (d, false)
  else
    let nxt := if !isState ∧ k < 2 then some (seq + 1) else x.next
    let x := { x with mode := some mode, next := nxt }
    let ends := !isState && decide (k = 1)
    if !mode then (d.setReplica o { x with mode := if ends then none else some false }, true)
    else if x.broken then (d.setReplica o x, false)
    else if ends then ((d.setReplica o x).closeEpoch o rank u, false)
    else (d.setReplica o { x with units := x.units ++ [(isState, u)] }, false)

/-- The units of a frame, one after the other: the device, and the units in their order, each with whether it belongs to an epoch that this device
relays. -/
def Dev.takeUnits (o rank : Nat) (isState : Bool) : Dev → List (List Byte) → Dev × List (Bool × List Byte)
  | d, [] => (d, [])
  | d, u :: us =>
    let r := d.takeUnit o rank isState u
    let q := Dev.takeUnits o rank isState r.1 us
    (q.1, (r.2, u) :: q.2)

/-- The units of a frame in runs, each of relayed units or of others. -/
def runsOf : List (Bool × List Byte) → List (Bool × List (List Byte))
  | [] => []
  | x :: rest =>
    match runsOf rest with
    | (b, us) :: more => if b = x.1 then (b, x.2 :: us) :: more else (x.1, [x.2]) :: (b, us) :: more
    | [] => [(x.1, [x.2])]

/-- A JOURNAL or STATE frame that travels East (R373): relayed units go on unchanged, those of an epoch that a rank-1 holder holds with HOPS 1, in
their order. A member that is not in MEMBER or LEAVING relays the frame (R371). -/
def Dev.takeStream (d : Dev) (f : LFrame) : Dev :=
  let isState := decide (f.typ = 2)
  if f.origin = d.tt.ringId then (if d.relays then d.forward false f else d)
  else
    let r := Dev.takeUnits f.origin (f.hops + 1) isState d f.body
    if d.relays then r.1.forward false f
    else (runsOf r.2).foldl (fun d x =>
      if x.1 then d.sendFrame true { f with body := x.2 }
      else if f.hops = 0 then d.sendFrame true { f with hops := 1, body := x.2 }
      else d) r.1

/-- A replica whose origin's chain is cut off after the last seal held (R375, R388): what is not sealed is discarded. -/
def Replica.cut (x : Replica) : Replica :=
  { x with units := [], mode := none, broken := false, next := if x.sealBytes.isEmpty then none else some (ufld x.sealBytes 0 8 % 2 ^ 62 + 1) }

/-- A seed's LINE units and images, with the number of LINE units; none where a line is poisoned, which fences the device (R385, R419). -/
def Dev.seedLines (d : Dev) (ts : List Nat) : Option (List (List (List Byte))) :=
  (ts.flatMap d.trackAccounts).foldr (fun x acc =>
    match acc with
    | none => none
    | some l =>
      let bs := d.readBytes (64 * x.2) 64
      if anyPoison bs then none else some ([lineUnit 1 d.tt.ringId x.1, vals bs] :: l)) (some [])

end Sys2Proof.Machine
end

