-- ==== Sys2Proof/Machine/Ring.lean ====
section
/-! DEFINITION. The Loop Line's membership and frames (R368-R403): states, heartbeats, loss and takeover, joining, leaving, handback, cut-over,
and line updates. -/
namespace Sys2Proof.Machine

open Sys2Proof

/-- A mask without bit `k`. -/
def maskOff (m k : Nat) : Nat := if m.testBit k then m - 2 ^ k else m

/-- Every owned track ceases to be owned (R108, R381). -/
def Dev.loseAll (d : Dev) (owner : Nat) (transfer : Bool) : Dev :=
  d.ownedTracks.foldl (fun d t => d.loseTrack t owner transfer) d

/-- The device enters OUT (R382, R400): it holds nothing of the ring, and LEAVE is cleared. Its tracks are FOREIGN at once. DEDUCED, assumptions 42
and 122. -/
def Dev.enterOut (d : Dev) : Dev :=
  if d.ring.state = .out then d
  else
    let d := (d.loseAll d.tt.ringId false).setRState .out
    (d.withRing (fun r => { r with
      live := 0, adopted := 0, replicas := [], beats := [], adopting := [], pendingMemb := [], handing := none, resume := [],
      active := false, caughtUp := false, gaveUp := false, seed := none, seeding := [], seedLines := 0, leaveSent := false, silence := 0,
      mute := 0, greeted := false, strange := false, twin := false, nearEast := [], nearWest := [], passing := false })).setRb rLlBypass 1 false

/-- Records that were acknowledged POSTED and can no longer be COMMITTED are forgotten, with their seen bits: a resend is judged new (R25, R61,
R389). -/
def Dev.forgetPosted (d : Dev) : Dev :=
  let lost := d.hub.recs.filter (fun r => match r.place with | .posted _ => true | _ => false)
  (lost.foldl (fun d r => (d.clearSeen r.source r.seq).dropRec r.id) d).withHub (fun h => { h with markers := [] })

/-- The device enters FENCED (R382, R355, R419): it owns no track and holds no epoch (R381), uncommitted epochs are discarded, and interrupt
source 52 rises. Its tracks are FOREIGN at once. DEDUCED, assumption 122. -/
def Dev.enterFenced (d : Dev) : Dev :=
  let d := (d.loseAll d.tt.ringId false).setRState .fenced
  let d := d.forgetPosted.withRing (fun r => { r with
    live := maskOff r.live (d.tt.ringId % 16), adopted := 0, adopting := [], handing := none,
    replicas := r.replicas.map (fun p => (p.1, { p.2 with units := [], mode := p.2.mode.map (fun _ => false) })) })
  ((d.discardOpen.setRb rLlErr 3 true).edge 52)

/-- OUT to JOINING (R382, R400): not while FORCE is 1. -/
def Dev.enterJoining (d : Dev) : Dev := if d.ring.state = .out ∧ d.rb rLlBypass 0 = false then d.setRState .joining else d

/-- A join is refused (R382, R384). -/
def Dev.joinReject (d : Dev) (cause : Nat) : Dev := ((d.setRb rLlErr 2 true).setRf rLlErr 10 4 cause).enterOut

/-- One step of a seed enters the East stream (R385): the line of an account is read now, so that it stands in the stream among the postings to the
line as it does in memory; an account that has been removed is passed over. None where a line is poisoned (R419). -/
def Dev.seedStep (d : Dev) : SeedStep → Option Dev
  | .resume => some (d.streamState [d.resumeUnit])
  | .line acct l =>
    match d.lineFor acct with
    | some (_, a) =>
      let bs := d.readBytes a 64
      if a ≠ 64 * l then some d
      else if anyPoison bs then none
      else some ((d.streamState [lineUnit 1 d.tt.ringId acct, vals bs]).withRing (fun r => { r with seedLines := r.seedLines + 1 }))
    | none => some d
  | .window source => some ((windowUnits source (d.win source)).foldl (fun d u => d.streamState [u]) d)
  | .done => some ((d.streamState [d.seedEnd d.ring.seedLines]).withRing (fun r => { r with seed := some d.jnl.epoch, seedLines := 0 }))

/-- Up to `n` steps of the seeds that have begun; a poisoned line fences the device. -/
def Dev.seedSteps : Nat → Dev → Dev
  | 0, d => d
  | n + 1, d =>
    match d.ring.seeding with
    | [] => d
    | x :: rest =>
      match (d.withRing (fun r => { r with seeding := rest })).seedStep x with
      | none => d.enterFenced
      | some e => e.seedSteps n

/-- A seed goes on while nothing else waits in the stream: journal units take precedence over it (R385). DEDUCED, assumption 132. -/
def Dev.feed : Nat → Dev → Dev
  | 0, d => d
  | n + 1, d =>
    if d.streamOpen && d.ring.stream.all (fun it => it.sent) && !d.ring.seeding.isEmpty then (d.seedSteps 32).pumpEast.feed n else d
def Dev.feedSeed (d : Dev) : Dev := d.feed d.ring.seeding.length

/-- A seed of the holders begins (R385). Where a holder is new (`again`), the RESUME goes first, and the epochs not yet committed are sent again
(R352, R388). DEDUCED, assumption 43. -/
def Dev.seedHolders (d : Dev) (again : Bool) : Dev :=
  if (d.holders d.tt.ringId).isEmpty then d
  else
    let steps := (d.ownedTracks.flatMap d.trackAccounts).map (fun x => SeedStep.line x.1 x.2)
      ++ d.hub.wins.map (fun w => SeedStep.window w.1) ++ [.done]
    let d := if again then
        d.resendStream.withRing (fun r => { r with stream := ⟨d.jnl.committed, false, .state [d.resumeUnit]⟩ :: r.stream })
      else d
    (d.withRing (fun r => { r with seeding := r.seeding ++ (if again then steps else .resume :: steps) })).pumpEast.feedSeed

/-- The kept epochs of a lost member go on to this device's own first successor (R388 step 1), in frames of one kind and at most 65 units (R369),
as a rank-1 holder forwards them. -/
def Dev.forwardTail (d : Dev) (x : Nat) : Dev :=
  if (d.holders d.tt.ringId).isEmpty then d
  else
    let runs := (d.replica x).tail.flatMap (fun t => runsOf t.units)
    let frames := runs.flatMap (fun p => (List.range ((p.2.length + 64) / 65)).map (fun i => (p.1, (p.2.drop (65 * i)).take 65)))
    frames.foldl (fun d p => d.sendFrame true { d.newFrame (if p.1 then 2 else 1) 1 (if p.1 then 0 else d.ring.fmtcur) p.2 with origin := x }) d

/-- What a change of the holder set brings (R352, R385, R388): a member that is new among the holders is seeded; every epoch not yet committed
is sent again; a new first successor gets the kept epochs of lost members. -/
def Dev.holdersChanged (d : Dev) (old : List Nat) : Dev :=
  if d.ring.state ≠ .member ∧ d.ring.state ≠ .leaving then d
  else
    let new := d.holders d.tt.ringId
    let d := if new.any (fun m => !old.contains m) then d.seedHolders true
      else if new ≠ old then d.resendStream
      else d
    let d := if new.head? = old.head? then d
      else (d.ring.replicas.filter (fun p => !d.ring.isLive p.1)).foldl (fun d p => d.forwardTail p.1) d
    d.pumpEast.tryCommit

/-- A member is or is not live in this device's view, with what that changes. -/
def Dev.setLive (d : Dev) (m : Nat) (on : Bool) : Dev :=
  if d.ring.isLive m = on then d
  else
    let old := d.holders d.tt.ringId
    let bit := 2 ^ (m % 16)
    ((d.withRing (fun r => { r with live := if on then r.live ||| bit else maskOff r.live (m % 16) })).memberEdge m).holdersChanged old

/-- A MEMBERSHIP unit (R383). -/
def Dev.membUnit (d : Dev) (subject new adopter : Nat) : List Byte :=
  leBytes 1 subject ++ leBytes 1 new ++ leBytes 1 adopter ++ leBytes 1 d.tt.ringId ++ leBytes 4 0 ++ leBytes 8 d.now ++ leBytes 48 0
def Dev.announce (d : Dev) (subject new adopter : Nat) : Dev := d.sendFrame true (d.newFrame 7 0 0 [d.membUnit subject new adopter])

/-- This device declares its West neighbour `x` lost (R380, R388): it forwards what its own first successor has not acknowledged of
the tail, discards what is not sealed, and adopts at its next boundary. -/
def Dev.declareLost (d : Dev) (x : Nat) : Dev :=
  if !d.ring.isLive x || d.ring.adopting.any (fun p => p.1 == x) then d
  else
    let d := (d.setReplica x (d.replica x).cut).forwardTail x
    d.withRing (fun r => { r with adopting := r.adopting ++ [(x, 5)] })

/-- The tracks of member `x` adopted at this boundary (R388 steps 2 and 3, R390): map entries, homes, windows; the announcement of a
loss; the seed. -/
def Dev.adopt (d : Dev) (x new : Nat) : Dev :=
  let ts := (d.yard.tracks.filter (fun p => p.2.owner == x)).map (fun p => p.1)
  let homes := ts.map (fun t => 2 ^ ((d.track t).home0 % 16))
  let d := d.gainTracks ts true
  let d := (d.replica x).wins.foldl (fun d w => d.setWin w.1 ((d.win w.1).merge w.2)) d
  let d := (d.setReplica x { (d.replica x).cut with wins := [], seeded := false }).withRing (fun r => { r with
    adopted := homes.foldl (fun a b => a ||| b) (r.adopted ||| 2 ^ (x % 16)), silence := 0 })
  let old := d.holders d.tt.ringId
  let d := if d.ring.isLive x then (d.withRing (fun r => { r with live := maskOff r.live (x % 16) })).memberEdge x else d
  let d := if new = 5 then d.announce x 5 d.tt.ringId else d
  let d := d.edge 49
  (d.seedHolders ((d.holders d.tt.ringId).any (fun m => !old.contains m))).tryCommit

/-- A MEMBERSHIP unit applied at a boundary (R383). -/
def Dev.applyMemb (d : Dev) (u : List Byte) : Dev :=
  let s := ufld u 0 1 % 16
  let new := ufld u 1 1
  let adopter := ufld u 2 1
  if new = 3 then
    let ts := (d.yard.tracks.filter (fun p => decide (p.2.home0 = s))).map (fun p => p.1)
    let d := ts.foldl (fun d t => if (d.track t).owned then d.loseTrack t s true else d.setTrack t { d.track t with owner := s }) d
    (d.withRing (fun r => { r with adopted := maskOff r.adopted s })).setLive s true
  else if s = d.tt.ringId then (if new = 5 ∧ (d.ring.state = .member ∨ d.ring.state = .leaving) then d.enterFenced else d)
  else if adopter = d.tt.ringId then (if d.ring.state = .member ∨ d.ring.state = .leaving then d.adopt s new else d)
  else
    let ts := (d.yard.tracks.filter (fun p => decide (p.2.owner = s))).map (fun p => p.1)
    let back := decide (new = 5 ∧ d.ring.state = .resync ∧ d.s1 d.tt.ringId = some s)
    let d := ts.foldl (fun d t => d.setTrack t { d.track t with owner := adopter % 16 }) d
    let d := (d.setReplica s (d.replica s).cut).setLive s false
    if back then (d.setRState .joining).withRing (fun r => { r with resume := [], active := false, caughtUp := false, gaveUp := false }) else d

/-- The chain starts from a RESUME unit, or as R351 says when there is none. A record whose commit epoch the RESUME covers is committed; the others
that were POSTED are forgotten (R25). DEDUCED, assumption 46. -/
def Dev.startChain (d : Dev) : Dev :=
  let u := d.ring.resume
  let base := if u.isEmpty then (0, 0, d.digest0 d.tt.ringId) else (ufld u 8 8, ufld u 16 8, u.drop 32)
  let last := if base.1 = 0 then [] else leBytes 8 (base.2.1 % 2 ^ 62 + 2 ^ 62) ++ leBytes 8 base.1 ++ leBytes 16 0 ++ base.2.2
  ((d.ackCommitted base.1).forgetPosted.withJnl (fun j => { j with
    next := base.2.1 + 1, epoch := base.1 + 1, committed := base.1, digest := base.2.2, lastSeal := last, lastEntry := 0,
    count := 0, first := 0,
    units := [], acks := [], notices := [], signing := none })).withRing (fun r => { r with
      stream := [], seeding := [], seedLines := 0, seed := none, resume := [] })

/-- JOINING or RESYNC to MEMBER at a boundary (R382, R391). -/
def Dev.becomeMember (d : Dev) : Dev :=
  let d := (d.startChain.setRState .member).withRing (fun r => { r with caughtUp := false, gaveUp := false, active := false, silence := 0 })
  let d := d.gainTracks ((d.yard.tracks.filter (fun p => p.2.home0 == d.tt.ringId)).map (fun p => p.1)) true
  let d := (d.withRing (fun r => { r with live := r.live ||| 2 ^ (d.tt.ringId % 16) })).edge 49
  (d.announce d.tt.ringId 3 0xFF).seedHolders false

/-- The latest heartbeat of a member. -/
def Dev.beat (d : Dev) (m : Nat) : Option Beat := (d.ring.beats.find? (fun p => p.1 == m)).map (fun p => p.2)

/-- The cause for which a neighbour's heartbeat `u` refuses a join (R384), if any. DEDUCED, assumption 41. -/
def Dev.joinCause (d : Dev) (u : List Byte) : Option Nat :=
  if ufld u 2 1 ≠ d.tt.n then some 2
  else if ufld u 48 8 ≠ ofLe (d.hashId.take 8) then some 3
  else if ufld u 6 1 ≠ d.epochUs then some 4
  else if !d.tt.fmtread.testBit (ufld u 3 1) || (decide (ufld u 7 1 ≠ 0) && !d.tt.fmtread.testBit (ufld u 7 1)) then some 5
  else if (ufld u 16 2).testBit d.tt.ringId then some 6
  else none

/-- The cause for which a joiner is refused now (R382, R384), if any: what each physical neighbour's latest heartbeat says, and what was heard. -/
def Dev.joinFails (d : Dev) : Option Nat :=
  if d.ring.strange then some 1
  else match ([d.ring.nearEast, d.ring.nearWest].filter (fun u => !u.isEmpty)).findSome? d.joinCause with
    | some c => some c
    | none => if d.ring.twin then some 6 else none

/-- JOINING and RESYNC at a boundary (R382, R391). -/
def Dev.joinStep (d : Dev) : Dev :=
  if d.ring.state ≠ .joining ∧ d.ring.state ≠ .resync then d
  else match d.joinFails with
  | some c => d.joinReject c
  | none =>
    if d.ring.state = .resync then
      if d.ring.gaveUp then d.becomeMember
      else
        let quiet := !d.ring.resume.isEmpty && !d.ring.active
        d.withRing (fun r => { r with caughtUp := r.caughtUp || quiet, active := false })
    else if !(d.ring.east.carries && d.ring.west.carries) || d.ring.nearEast.isEmpty || d.ring.nearWest.isEmpty then d
    else
      let u := d.ring.nearWest
      let d := d.withRing (fun r => { r with
        fmtcur := ufld u 3 1, cut := if ufld u 7 1 = 0 then r.cut else some ⟨ufld u 7 1, ufld u 40 8⟩ })
      let adopted := match d.s1 d.tt.ringId with
        | some s => (match d.beat s with | some b => (ufld b.bytes 18 2).testBit d.tt.ringId | none => false)
        | none => false
      if adopted then (d.setRState .resync).withRing (fun r => { r with resume := [], active := false }) else d.becomeMember

/-- The RESUME of another member's chain, as this device holds it (R376, R391). -/
def Dev.resumeOf (d : Dev) (m : Nat) : List Byte :=
  let x := d.replica m
  leBytes 1 3 ++ leBytes 1 m ++ leBytes 6 0 ++
    (if x.sealBytes.isEmpty then leBytes 24 0 ++ d.digest0 m
     else leBytes 8 (ufld x.sealBytes 8 8) ++ leBytes 8 (ufld x.sealBytes 0 8 % 2 ^ 62) ++ leBytes 8 0 ++ x.sealBytes.drop 32)

/-- The handing member at a boundary (R391): the snapshot at b0; the tracks given up at h. -/
def Dev.handStep (d : Dev) : Dev :=
  match d.ring.handing with
  | none => d
  | some h =>
    let ts := (d.yard.tracks.filter (fun p => p.2.owned && p.2.home0 == h.joiner)).map (fun p => p.1)
    if !h.started then
      match d.seedLines ts with
      | none => d.enterFenced
      | some ls =>
        let d := d.sendFrame false (d.newFrame 2 0 0 [d.resumeOf h.joiner])
        let d := ls.foldl (fun d u => d.sendFrame false (d.newFrame 2 0 0 u)) d
        let d := d.hub.wins.foldl (fun d w => (windowUnits w.1 w.2).foldl (fun d u => d.sendFrame false (d.newFrame 2 0 0 [u])) d) d
        d.withRing (fun r => { r with handing := some { h with started := true } })
    else if h.ready then
      let d := ts.foldl (fun d t => d.loseTrack t h.joiner true) d
      (d.withRing (fun r => { r with handing := none, adopted := maskOff r.adopted (h.joiner % 16) })).edge 49
    else d

/-- LEAVING at a boundary (R390): once every epoch is committed, the MEMBERSHIP of the leave, and the tracks go to S1. DEDUCED, assumption 39. -/
def Dev.leaveStep (d : Dev) : Dev :=
  if d.ring.state = .member ∧ d.rb rLlBypass 1 then d.setRState .leaving
  else if d.ring.state = .leaving ∧ !d.ring.leaveSent then
    let open_ := d.jnl.units.any (fun u => decide (u.kind < 2 ∧ d.jnl.committed < u.epoch)) || decide (d.jnl.count ≠ 0) || !d.hub.posts.isEmpty
      || d.thr.any (fun p => p.2.consist.isSome)
    match d.s1 d.tt.ringId with
    | some s =>
      if open_ then d
      else ((d.announce d.tt.ringId 0 s).loseAll s true).withRing (fun r => { r with
        leaveSent := true, adopted := 0, live := maskOff r.live (d.tt.ringId % 16) })
    | none => d
  else d

/-- The HEARTBEAT unit (R379). -/
def Dev.beatUnit (d : Dev) : List Byte :=
  let st := match d.ring.state with | .out => 0 | .joining => 1 | .resync => 2 | .member => 3 | .leaving => 4 | .fenced => 5
  let adopted := if d.ring.state = .resync ∧ !d.ring.caughtUp then d.ring.adopted ||| 2 ^ (d.tt.ringId % 16) else d.ring.adopted
  leBytes 1 st ++ leBytes 1 d.tt.ringId ++ leBytes 1 d.tt.n ++ leBytes 1 d.ring.fmtcur ++ leBytes 2 d.tt.fmtread
  ++ leBytes 1 (d.epochUs) ++ leBytes 1 ((d.ring.cut.map (fun c => c.fmt)).getD 0) ++ leBytes 8 d.tt.gen
  ++ leBytes 2 d.ring.live ++ leBytes 2 adopted ++ leBytes 4 d.ownedTracks.length ++ leBytes 8 d.jnl.epoch ++ leBytes 8 d.jnl.committed
  ++ leBytes 8 ((d.ring.cut.map (fun c => c.time)).getD 0) ++ d.hashId.take 8 ++ leBytes 8 d.now

/-- A HEARTBEAT on each port at a boundary (R379); the counts of R380 and R396. -/
def Dev.sendBeats (d : Dev) : Dev :=
  if d.ring.state = .out then d
  else
    let f := d.newFrame 4 0 0 [d.beatUnit]
    let left := d.ring.east.carries || d.ring.west.carries
    let d := (d.sendFrame true f false).sendFrame false f false
    d.withRing (fun r => { r with silence := r.silence + 1, mute := if left then 0 else r.mute + 1 })

/-- A cut-over that is due takes effect (R346 order 5, R393). -/
def Dev.cutSwitch (d : Dev) : Dev :=
  match d.ring.cut with
  | some c => if c.time ≤ d.now then (d.withRing (fun r => { r with fmtcur := c.fmt, cut := none })).edge 51 else d
  | none => d

/-- The leader schedules a cut-over to the highest format that every live member reads, where it has heard them all (R392, R393).
DEDUCED, assumption 40. -/
def Dev.scheduleCut (d : Dev) : Dev :=
  let others := (List.range 16).filter (fun m => d.ring.isLive m && decide (m ≠ d.tt.ringId))
  let heard := others.all (fun m => (d.beat m).isSome)
  let reads := fun f => d.tt.fmtread.testBit f && others.all (fun m => match d.beat m with
    | some b => (ufld b.bytes 4 2).testBit f | none => false)
  if d.ring.state ≠ .member ∨ d.leader ≠ d.tt.ringId ∨ d.ring.cut.isSome ∨ !heard then d
  else match ((List.range 16).reverse.filter (fun f => decide (d.ring.fmtcur < f))).find? reads with
    | none => d
    | some f =>
      let us := d.epochUs * 1000
      let time := d.now / us * us + clamp 16 255 (d.rf rLlCtl 24 8) * us
      let d := (d.withRing (fun r => { r with cut := some ⟨f, time⟩ })).edge 51
      d.sendFrame true (d.newFrame 8 0 0 [leBytes 1 f ++ leBytes 1 d.tt.ringId ++ leBytes 6 0 ++ leBytes 8 time ++ leBytes 48 0])

/-- A handback unit that travels West reaches the joiner (R377, R391). DEDUCED, assumption 38. -/
def Dev.takeHandback : Dev → List (List Byte) → Dev
  | d, [] => d
  | d, [u] =>
    let d := d.withRing (fun r => { r with active := true })
    if ufld u 0 1 = 3 then d.withRing (fun r => { r with resume := u })
    else if ufld u 0 1 = 2 then d.setWin (ufld u 2 2) (mergeUnit (d.win (ufld u 2 2)) u)
    else if ufld u 0 1 = 1 then (d.applyLine false (ufld u 1 1) (ufld u 8 8) []).1
    else d
  | d, u :: v :: rest =>
    let d := d.withRing (fun r => { r with active := true })
    if ufld u 0 1 = 1 ∧ ufld u 1 1 ≠ 3 then (d.applyLine false (ufld u 1 1) (ufld u 8 8) v).1.takeHandback rest
    else
      let d := if ufld u 0 1 = 3 then d.withRing (fun r => { r with resume := u })
        else if ufld u 0 1 = 2 then d.setWin (ufld u 2 2) (mergeUnit (d.win (ufld u 2 2)) u)
        else if ufld u 0 1 = 1 then (d.applyLine false 3 (ufld u 8 8) []).1 else d
      d.takeHandback (v :: rest)

/-- A copy of a journal entry that the handing member sends West (R391), applied as at a holder (R377); its epoch is the one that the handing
member's latest heartbeat gives as open. DEDUCED, assumption 134. -/
def Dev.takeHandEntry (d : Dev) (u : List Byte) : Dev :=
  let cft := ufld u 56 4
  let epoch := match (d.s1 d.tt.ringId).bind d.beat with | some b => ufld b.bytes 24 8 | none => 0
  let d := d.withRing (fun r => { r with active := true })
  let d := if cft / 2 ^ 28 % 2 = 1 then d
    else match d.lineFor (ufld u 8 8) with
      | some (_, a) =>
        let n := ofLe (vals (d.readBytes (a + 48) 8))
        (d.writeBytes a (clean ((u.drop 32).take 16))).writeBytes (a + 40) (clean (leBytes 8 (ufld u 0 8) ++ leBytes 8 (n + 1) ++ leBytes 8 epoch))
      | none => d
  if cft / 2 ^ 29 % 2 = 1 then d else d.setWin (ufld u 48 2) ((d.win (ufld u 48 2)).put (ufld u 50 6) 2)

/-- An account of this device's home tracks (R366). -/
def Dev.homeAcct (d : Dev) (acct : Nat) : Bool := decide ((d.track (d.trackOf (word acct))).home0 = d.tt.ringId)

/-- A handback frame that travels West is this joiner's (R371, R391): its RESUME, a line of its home tracks, or a window after its RESUME. DEDUCED,
assumption 133. -/
def Dev.handedHere (d : Dev) (u : List Byte) : Bool :=
  if ufld u 0 1 = 3 then decide (ufld u 1 1 = d.tt.ringId)
  else if ufld u 0 1 = 1 then d.homeAcct (ufld u 8 8)
  else decide (ufld u 0 1 = 2) && !d.ring.passing && !d.ring.resume.isEmpty

/-- A RESUME that travels West, to this joiner or to another. -/
def Dev.notePassing (d : Dev) (u : List Byte) : Dev :=
  if ufld u 0 1 = 3 then d.withRing (fun r => { r with passing := decide (ufld u 1 1 ≠ d.tt.ringId) }) else d

/-- A frame's effect, and what of a seed can then go on (R385). -/
def Dev.onRing (d : Dev) (east : Bool) (typ : Nat) (f : LFrame) (effect : Dev → Dev) : Dev := (d.onFrame east typ f effect).feedSeed

/-- JOURNAL (R373): on the WEST port the stream of an origin; on the EAST port a handback's entries (R391). -/
def execJournalFrame (east : Bool) (f : LFrame) (s : State) : Host.Outcome State Fault Refusal :=
  onDev s (fun d => d.onRing east 1 f (fun d =>
    if east then
      (if d.ring.state = .resync ∧ d.homeAcct (ufld (f.body.headD []) 8 8) then f.body.foldl Dev.takeHandEntry d
       else if d.relays then d.forward true f else d)
    else d.takeStream f))

/-- STATE (R377): on the WEST port the stream of an origin; on the EAST port a handback (R391). -/
def execStateFrame (east : Bool) (f : LFrame) (s : State) : Host.Outcome State Fault Refusal :=
  onDev s (fun d => d.onRing east 2 f (fun d =>
    if east then
      let d := d.notePassing (f.body.headD [])
      (if (d.ring.state = .resync ∨ d.ring.state = .joining) ∧ d.handedHere (f.body.headD []) then d.takeHandback f.body
       else if d.relays then d.forward true f else d)
    else d.takeStream f))

/-- One EPOCHACK unit at a member (R375): its own, or one to send on; a rank-2 one ends the need to keep the epoch, and commits the epoch of a
lost member (R388). -/
def Dev.takeEpochAck (d : Dev) (u : List Byte) : Dev :=
  let o := ufld u 0 1
  let e := ufld u 8 8
  if o = d.tt.ringId then
    d.withJnl (fun j => { j with acks := j.acks ++ [⟨ufld u 2 1, ufld u 1 1, e⟩] })
  else if (d.ring.replicas.any (fun p => p.1 == o)) && decide (ufld u 2 1 = 2) then
    let x := d.replica o
    let kept := x.tail.any (fun t => t.epoch == e)
    let d := d.setReplica o { x with
      tail := x.tail.filter (fun t => decide (e < t.epoch)),
      committed := if kept ∧ !d.ring.isLive o ∧ x.committed < e then e else x.committed }
    if kept && !d.ring.isLive o then d.predCommitted 1 e else d
  else d

/-- EPOCHACK (R375). -/
def execEpochackFrame (east : Bool) (f : LFrame) (s : State) : Host.Outcome State Fault Refusal :=
  onDev s (fun d => d.onRing east 3 f (fun d =>
    if d.relays then d.forward east f
    else
      let rest := f.body.filter (fun u => decide (ufld u 0 1 ≠ d.tt.ringId))
      let d := f.body.foldl Dev.takeEpochAck d
      let d := if rest.isEmpty || decide (f.origin = d.tt.ringId) then d else d.forward east { f with body := rest }
      d.tryCommit))

/-- The losses that a heartbeat on the WEST port declares (R380): any heartbeat of the West neighbour ends its silence; replacement of live members
that lie nearer than its origin; refusal. -/
def Dev.beatLosses (d : Dev) (origin state : Nat) : Dev :=
  let west := d.liveWest d.tt.ringId
  if d.ring.state ≠ .member ∧ d.ring.state ≠ .leaving then d
  else
    let d := if west.head? = some origin then d.withRing (fun r => { r with silence := 0 }) else d
    if state = 5 then (if west.head? = some origin then d.declareLost origin else d)
    else if (state ≠ 3 ∧ state ≠ 4) ∨ d.ring.greeted then d
    else (west.takeWhile (fun m => m ≠ origin)).foldl Dev.declareLost (d.withRing (fun r => { r with greeted := true }))

/-- What a heartbeat of `o` in state `st` with the view `mask` says of the live members (R365): a joiner takes a member's view; a member notes one
that is in MEMBER. DEDUCED, assumptions 37 and 131. -/
def Dev.noteLive (d : Dev) (o st mask : Nat) : Dev :=
  if d.ring.state = .joining ∨ d.ring.state = .resync then
    (if st = 3 then d.withRing (fun r => { r with live := maskOff (mask ||| 2 ^ (o % 16)) (d.tt.ringId % 16) }) else d)
  else if st = 3 ∧ !d.ring.adopting.any (fun p => p.1 == o) then d.setLive o true else d

/-- A member that reports JOINING, RESYNC or FENCED is not live (R365). -/
def Dev.noteNotLive (d : Dev) (o st : Nat) : Dev :=
  if (d.ring.state = .member ∨ d.ring.state = .leaving) ∧ (st = 1 ∨ st = 2 ∨ st = 5) then d.setLive o false else d

/-- A cut-over that a heartbeat reports (R393). -/
def Dev.noteCut (d : Dev) (u : List Byte) : Dev :=
  match d.ring.cut with
  | none => if ufld u 7 1 ≠ 0 ∧ d.ring.fmtcur < ufld u 7 1 then (d.withRing (fun r => { r with cut := some ⟨ufld u 7 1, ufld u 40 8⟩ })).edge 51 else d
  | some _ => d

/-- What a joiner's heartbeat asks of its first successor (R382, R391): a handback where this device has adopted its tracks, the RESUME of its chain
where it has not. DEDUCED, assumption 130. -/
def Dev.noteJoiner (d : Dev) (o st : Nat) (u : List Byte) : Dev :=
  if d.ring.state ≠ .member then d
  else if st = 1 ∧ d.s1 o = some d.tt.ringId ∧ !d.ring.adopted.testBit o ∧ !(d.replica o).sealBytes.isEmpty then
    d.sendFrame false (d.newFrame 2 0 0 [d.resumeOf o])
  else if st = 2 ∧ d.ring.adopted.testBit o then
    match d.ring.handing with
    | none => d.withRing (fun r => { r with handing := some ⟨o, false, false⟩ })
    | some h => if h.joiner = o ∧ h.started ∧ !(ufld u 18 2).testBit o then d.withRing (fun r => { r with handing := some { h with ready := true } }) else d
  else d

/-- What a heartbeat tells this device of its sender and of the sender's view (R365, R379, R382, R391, R393). DEDUCED, assumption 37. -/
def Dev.noteBeat (d : Dev) (east : Bool) (f : LFrame) (u : List Byte) : Dev :=
  let o := f.origin
  let st := ufld u 0 1
  let d := d.withRing (fun r => { r with beats := SMap.set (fun _ => ⟨[], 0⟩) r.beats o ⟨u, f.sender⟩ })
  let d := if f.sender ≠ o then d else d.withRing (fun r => if east then { r with nearEast := u } else { r with nearWest := u })
  let d := if ufld u 6 1 ≠ d.epochUs then d.setRb rLlErr 5 true else d
  let d := (d.noteLive o st (ufld u 16 2)).noteCut u
  let d := if d.ring.state = .resync ∧ d.s1 d.tt.ringId = some o ∧ d.ring.caughtUp ∧ !(ufld u 18 2).testBit d.tt.ringId then
      d.withRing (fun r => { r with gaveUp := true }) else d
  d.noteJoiner o st u

/-- HEARTBEAT (R379, R380, R384). A joiner that hears a member with its own ring ID is refused. -/
def execHeartbeatFrame (east : Bool) (f : LFrame) (s : State) : Host.Outcome State Fault Refusal :=
  onDev s (fun d => d.onRing east 4 f (fun d =>
    let u := f.body.headD []
    let st := ufld u 0 1
    let d := if f.origin = d.tt.ringId then
        (if (d.ring.state = .joining ∨ d.ring.state = .resync) ∧ (st = 3 ∨ st = 4) then d.withRing (fun r => { r with twin := true }) else d)
      else
        let d := d.noteBeat east f u
        (if east then d else d.beatLosses f.origin st).noteNotLive f.origin st
    if d.relays then d.forward east f else d))

/-- TRANSFER (R374): taken by the owner, refused on its return, forwarded otherwise. -/
def execTransferFrame (east : Bool) (f : LFrame) (s : State) : Host.Outcome State Fault Refusal :=
  onDev s (fun d => d.onRing east 5 f (fun d =>
    if d.relays then d.forward east f
    else
      let hdr := f.body.headD []
      let bs := ((f.body.drop 1).flatten).take (ufld hdr 16 2)
      let b := waybill bs
      if ufld hdr 4 1 = d.tt.ringId then
        let d := d.setRb rLlErr 4 true
        match d.ring.transfers.find? (fun p => p.1 == ufld hdr 0 4) with
        | some p => (d.withRing (fun r => { r with transfers := r.transfers.filter (fun q => q.1 ≠ p.1) })).ack p.2.door
            ⟨3, 4, p.2.source, p.2.seq, none, 0⟩
        | none => d
      else if (d.track (d.trackOf (word b.primary))).owned then
        d.receive ⟨bs, none, true, false, false, .ring hdr, ufld hdr 8 8⟩
      else d.forward east f))

/-- One OUTCOME unit at its receiver (R374): the acknowledgement goes to the source. -/
def Dev.takeOutcome (d : Dev) (u : List Byte) : Dev :=
  match d.ring.transfers.find? (fun p => p.1 == ufld u 0 4) with
  | none => d
  | some p =>
    let a := ackOfBytes ((u.drop 16).take 16)
    let d := if a.kind = 1 then d else d.withRing (fun r => { r with transfers := r.transfers.filter (fun q => q.1 ≠ p.1) })
    d.ack p.2.door a

/-- OUTCOME (R374). -/
def execOutcomeFrame (east : Bool) (f : LFrame) (s : State) : Host.Outcome State Fault Refusal :=
  onDev s (fun d => d.onRing east 6 f (fun d =>
    if d.relays then d.forward east f
    else
      let mine := f.body.filter (fun u => decide (ufld u 5 1 = d.tt.ringId))
      let rest := f.body.filter (fun u => decide (ufld u 5 1 ≠ d.tt.ringId))
      let d := mine.foldl Dev.takeOutcome d
      if rest.isEmpty || decide (f.origin = d.tt.ringId) then d else d.forward east { f with body := rest }))

/-- MEMBERSHIP (R383, R390): every other member applies it at its next boundary, in whatever state it is, and forwards it; its announcer discards it,
and a member that has left enters OUT. -/
def execMembershipFrame (east : Bool) (f : LFrame) (s : State) : Host.Outcome State Fault Refusal :=
  onDev s (fun d => d.onRing east 7 f (fun d =>
    let u := f.body.headD []
    if ufld u 3 1 = d.tt.ringId then
      (if ufld u 0 1 = d.tt.ringId ∧ ufld u 1 1 = 0 ∧ d.ring.state = .leaving then d.enterOut else d)
    else (d.withRing (fun r => { r with pendingMemb := r.pendingMemb ++ [u] })).forward east f))

/-- CUTOVER (R393). -/
def execCutoverFrame (east : Bool) (f : LFrame) (s : State) : Host.Outcome State Fault Refusal :=
  onDev s (fun d => d.onRing east 8 f (fun d =>
    let u := f.body.headD []
    if ufld u 1 1 = d.tt.ringId then d
    else ((d.withRing (fun r => { r with cut := some ⟨ufld u 0 1, ufld u 8 8⟩ })).edge 51).forward east f))

/-- LINKACK (R370): nothing beyond what every frame does to its link. -/
def execLinkackFrame (east : Bool) (f : LFrame) (s : State) : Host.Outcome State Fault Refusal :=
  onDev s (fun d => d.onRing east 9 f (fun d => d))

/-- BAD_FRAME (R364, R370, R371): discarded, counted, answered with NAK. A heartbeat of another RINGNAME fails a join (R384). -/
def execBadFrame (east : Bool) (f : LFrame) (s : State) : Host.Outcome State Fault Refusal :=
  onDev s (fun d =>
    let p := d.port east
    if d.frameOk east f || !p.carries then d
    else
      let d := (d.setPort east { p with nak := true }).count rLlErr 48 16
      if f.typ = 4 ∧ f.crc = frameCheck f ∧ f.ringname ≠ d.tt.ringname ∧ (d.ring.state = .joining ∨ d.ring.state = .resync) then
        d.withRing (fun r => { r with strange := true }) else d)

/-- LINK_RESEND_TIMEOUT (R370). -/
def execLinkResendTimeout (east : Bool) (s : State) : Host.Outcome State Fault Refusal := onDev s (fun d => d.resend east)

/-- LINK_IDLE (R370). -/
def execLinkIdle (east : Bool) (s : State) : Host.Outcome State Fault Refusal :=
  onDev s (fun d => if (d.port east).carries then d.sendFrame east (d.newFrame 9 0 0 []) else d)

/-- PORT_TRAINED (R368, R370) with the number of fibres up: it needs the switches at insert and two fibres, and a port that is not held down (R395).
Frames that were not acknowledged are sent again from FSEQ 0; heartbeats and LINKACKs among them are not. DESIGN CHOICE, assumption 113. -/
def execPortTrained (east : Bool) (fibres : Nat) (s : State) : Host.Outcome State Fault Refusal :=
  onUnit (decide (fibres ≤ 4)) s (fun d =>
    let p := d.port east
    if !d.ring.inserted || decide (fibres < 2) || p.up || p.heldDown then d
    else
      let again := p.store.filter (fun f => f.typ ≠ 4 ∧ f.typ ≠ 9)
      let d := d.setPort east { p with
        up := true, fibres := fibres, first := false, txq := again ++ p.txq, store := [], fseq := 0, expect := 0, nak := false }
      let d := d.withRing (fun r => if east then { r with nearEast := [] } else { r with nearWest := [], greeted := false, silence := 0 })
      (d.pumpPort east).pumpEast.feedSeed)

/-- PORT_LOSS_OF_SIGNAL (R368): the port, or one of its fibres, loses light; it is down until it trains again. A port that is held down stays so until
all its light is lost (R395). -/
def execPortLossOfSignal (east : Bool) (fibres : Nat) (s : State) : Host.Outcome State Fault Refusal :=
  onUnit (decide (fibres ≤ 4)) s (fun d =>
    let p := d.port east
    let d := d.setPort east { p with up := false, fibres := fibres, heldDown := p.heldDown && decide (fibres ≠ 0) }
    if p.up then d.setRb rLlErr (if east then 0 else 1) true else d)

/-- SILENCE_LOSS (R380). -/
def execSilenceLoss (s : State) : Host.Outcome State Fault Refusal :=
  onDev s (fun d =>
    match (d.liveWest d.tt.ringId).head? with
    | some x => if (d.ring.state = .member ∨ d.ring.state = .leaving) ∧ d.ring.west.carries ∧ 3 ≤ d.ring.silence then d.declareLost x else d
    | none => d)

/-- LINKDOWN_EXPIRY (R380, R382): the EAST port fences, the WEST port declares its neighbour lost. -/
def execLinkdownExpiry (east : Bool) (s : State) : Host.Outcome State Fault Refusal :=
  onDev s (fun d =>
    if (d.port east).carries ∨ ¬ (d.ring.state = .member ∨ d.ring.state = .leaving) then d
    else if east then d.enterFenced
    else match (d.liveWest d.tt.ringId).head? with
      | some x => d.declareLost x
      | none => d)

/-- JOIN_TIMEOUT (R382). -/
def execJoinTimeout (s : State) : Host.Outcome State Fault Refusal :=
  onDev s (fun d =>
    if (d.ring.state = .joining ∨ d.ring.state = .resync) ∧ !(d.ring.east.carries && d.ring.west.carries) then d.joinReject 7 else d)

/-- LL_WATCHDOG (R396). -/
def execLlWatchdog (s : State) : Host.Outcome State Fault Refusal :=
  onDev s (fun d => if d.ring.state ≠ .out ∧ 4 ≤ d.ring.mute then (d.setRb rLlErr 3 true).enterOut else d)

/-- THROUGH_LINE_SWITCHED (R394): the switches reach insert while the device is not in OUT, and through while it is. -/
def execThroughLineSwitched (insert : Bool) (s : State) : Host.Outcome State Fault Refusal :=
  onDev s (fun d =>
    if insert = decide (d.ring.state ≠ .out) ∧ d.ring.inserted ≠ insert then
      let d := d.withRing (fun r => { r with inserted := insert })
      if insert then d else (d.setPort true Port.reset).setPort false Port.reset
    else d)

/-- LL_LUPD GO (R378, R401): the LINE units of the account enter the East stream, or the command is refused. -/
def Dev.lineUpdate (d : Dev) : Dev :=
  let a := d.rf rLlLupd 6 42 * 64
  let op := d.rf rLlLupd 48 2
  let acct := (d.reg rLlLupdacct).toNat
  let bs := d.readBytes a 64
  let d := d.setRb rLlLupd 0 false
  if Config.hbmEnd < a + 64 ∨ op = 0 ∨ anyPoison bs then d.setRb rLlLupd 51 true
  else
    let us := if op = 3 then [lineUnit 3 d.tt.ringId acct] else [lineUnit op d.tt.ringId acct, vals bs]
    (((d.streamState us).withRing (fun r => { r with lupd := some d.jnl.epoch })).handCopy acct 2 us).pumpEast

end Sys2Proof.Machine
end

