-- ==== Sys2Proof/Machine/Capture.lean ====
section
/-! DEFINITION. The Train Register's shares: checkpoints, the window that is held, and arming (R497-R501, R506, R513, R514). -/
namespace Sys2Proof.Machine

open Sys2Proof

def Dev.withTrg (d : Dev) (f : Trg → Trg) : Dev := { d with trg := f d.trg }
def Dev.withBox (d : Dev) (f : SigBox → SigBox) : Dev := { d with box := f d.box }

/-- The clusters of a mask, ascending. -/
def clustersOf (mask : Nat) : List Nat := (List.range 32).filter mask.testBit

/-- The window in force, in ns: WINDOW in units of 0.1 ms, clamped to 5-80 (R514). -/
def Dev.windowNs (d : Dev) : Nat := clamp 5 80 d.trg.window * 100000

/-- The bytes of a share (R500), and where the share of cluster `c` begins. -/
def Dev.shareBytes (d : Dev) : Nat := d.rf rTrgWin 16 5 * 2 ^ 30 / Nat.max 1 (clustersOf d.trg.clusters).length
def Dev.shareBase (d : Dev) (c : Nat) : Nat :=
  d.rf rTrgWin 30 18 * 2 ^ 30 + d.shareBytes * ((clustersOf d.trg.clusters).filter (fun k => decide (k < c))).length

/-- The bytes that a share holds: 1 MiB for a checkpoint, 16 and the payload for a record (R496, R498). -/
def Share.bytes (x : Share) : Nat := x.ckpts.length * 0x100000 + (x.recs.map (fun r => 16 + r.payload.length)).sum

/-- The oldest checkpoint of a share is given up with its records. -/
def Share.dropOldest (x : Share) : Share :=
  { x with ckpts := x.ckpts.drop 1, recs := (x.recs.drop 1).dropWhile (fun r => r.kind ≠ 0xF0) }

/-- The window held (R501): checkpoints that WINDOW no longer needs go; where there is no room for WINDOW, the oldest data goes
and OVF is set. -/
def Dev.trimShare (d : Dev) : Nat → Share → Share
  | 0, x => x
  | n + 1, x =>
    match x.ckpts with
    | _ :: k :: _ =>
      if d.windowNs ≤ d.now - k.time then d.trimShare n x.dropOldest
      else if d.shareBytes - 0x600000 < x.bytes then d.trimShare n { x.dropOldest with ovf := true }
      else x
    | _ => x

/-- A checkpoint of cluster `c` (R497 step 5): its state, the CKPT record, a new undo log. -/
def Dev.takeCkpt (d : Dev) (c : Nat) (fresh : Bool) : Dev :=
  if d.capturing c then
    let x := d.share c
    let k : Ckpt := ⟨(d.cluster c).ccc / 10, d.now, fresh, d.thr.filter (fun p => decide (clusterOf p.1 = c)), d.cluster c,
      d.btb.filter (fun p => decide (p.1 / 128 / 12 = c)), d.free⟩
    let d := { d with free := d.free + 25 }
    let d := d.capture c 0xF0 0x7F 0 (d.shareBase c + 0x100000 * (x.ckpts.length % Nat.max 1 (d.shareBytes / 0x100000))) []
    let x := d.trimShare x.ckpts.length { d.share c with ckpts := x.ckpts ++ [k], undone := [], acct := [] }
    let d := d.setShare c x
    if x.ovf then d.setRb rTrgStatus 4 true else d
  else d

/-- The effective window in units of 0.1 ms (R501): the shortest among the captured clusters. -/
def Dev.effWin (d : Dev) : Nat :=
  let state := d.rf rTrgStatus 0 3
  if state = 0 ∨ state = 4 then 0
  else
    let last := match d.trg.frozen with | some f => f.tod | none => d.now
    let one := fun c => match (d.share c).ckpts with | k :: _ => (last - k.time) / 100000 | [] => 0
    match (clustersOf d.trg.clusters).map one with
    | [] => 0
    | w :: ws => sat 255 (ws.foldl Nat.min w)

/-- Capture is armed (R497, R506): CLUSTERS, ENABLE and WINDOW come into force, every share is empty, and each captured
cluster is to take its first checkpoint. It is not armed while a replay is set up (R517). -/
def Dev.armCapture (d : Dev) : Dev :=
  if d.trg.arm && decide (d.rf rTrgRplCtl 13 3 = 0) then
    let on := d.rb rTrgCtl 3
    let mask := d.rf rTrgCtl 32 32
    let d := d.withTrg (fun t => { t with
      arm := false, pend := none, clusters := mask, window := d.rf rTrgWin 0 7, shares := [], frozen := none })
    let d := (d.setRf rTrgStatus 0 3 on.toNat).setRb rTrgCtl 1 false
    if on then (clustersOf mask).foldl (fun d c => d.setCluster c { d.cluster c with held := (d.cluster c).released }) d else d
  else d

/-- At a boundary every captured cluster records the tick, and one whose last checkpoint lies WINDOW / 8 back stops issue for the
next (R495, R497). -/
def Dev.tickCapture (d : Dev) : Dev :=
  if d.rf rTrgStatus 0 3 = 1 then
    (clustersOf d.trg.clusters).foldl (fun d c =>
      let d := d.cross c 1
      match (d.share c).ckpts.getLast? with
      | some k =>
        if d.windowNs / 8 ≤ d.now - k.time then d.setCluster c { d.cluster c with held := (d.cluster c).released } else d
      | none => d) d
  else d

/-- Whether a cluster that has stopped issue is quiet (R497 steps 2-4): nothing in flight, store buffers drained, POSTs complete. -/
def Dev.clusterQuiet (d : Dev) (c : Nat) : Bool :=
  (d.thr.filter (fun p => decide (clusterOf p.1 = c))).all (fun p => p.2.sb.isEmpty && p.2.posts.isEmpty && p.2.fpOut.isEmpty)

/-- CHECKPOINT of cluster `c` (R497): fetch buffers are emptied, the checkpoint is written, and issue resumes. -/
def execCheckpoint (c : Nat) (s : State) : Host.Outcome State Fault Refusal :=
  onUnit (decide (c < Config.clusters)) s (fun d =>
    if (d.cluster c).held && d.clusterQuiet c then
      let d := { d with thr := (d.thr.map (fun (p : Nat × Thread) =>
        if clusterOf p.1 = c then (p.1, { p.2 with fetchLine := none }) else p)).filter (fun p => decide (p.2 ≠ Thread.reset)) }
      let d := d.takeCkpt c false
      d.setCluster c { d.cluster c with held := false }
    else d)

end Sys2Proof.Machine
end

