-- ==== Sys2Proof/Machine/Power.lean ====
section
/-! DEFINITION. Supplies, the core clock step, CAUTION, thermal limits (R519-R529, R547, R549), calibration values (R485), what a reset leaves
(R530, R537), and the beginning of a start (R481). -/
namespace Sys2Proof.Machine

open Sys2Proof

/-- A signed number clamped to a range. -/
def clampI (lo hi v : Int) : Int := if v < lo then lo else if hi < v then hi else v

/-- The user range, effective range and factory range of calibration item `i` (R485); none for the reserved items. -/
def calRange (i : Nat) : Option ((Int × Int) × (Int × Int) × (Int × Int)) :=
  if i < 40 then some ((-40, 40), (-128, 127), (-128, 127))
  else if i < 56 then some ((-15, 15), (-64, 63), (-64, 63))
  else if i < 64 then some ((-4, 4), (0, 63), (0, 63))
  else if i < 160 then some ((-6, 6), (0, 31), (0, 31))
  else if i < 256 then some ((-8, 8), (0, 63), (0, 63))
  else if i < 264 then some ((-100, 100), (200, 1200), (0, 1200))
  else if i < 296 then some ((-50, 50), (0, 2000), (0, 2000))
  else if i < 424 then some ((-16, 16), (0, 255), (0, 255))
  else none

/-- A number in 16 bits, two's complement. -/
def low16 (v : Int) : Nat := (v % 65536).toNat

/-- CAL_ITEMi for a user offset (R485, R486). -/
def calWord (i : Nat) (user : Int) : Word :=
  match calRange i with
  | none => 0
  | some (u, e, f) =>
    let factory := clampI f.1 f.2 (Config.calFactory i)
    let used := clampI u.1 u.2 user
    let eff := clampI e.1 e.2 (factory + used)
    word (low16 factory + low16 user * 2 ^ 16 + low16 eff * 2 ^ 32
      + (decide (used ≠ user) || decide (eff ≠ factory + used)).toNat * 2 ^ 48)

/-- Every item combined with its user offset (R485). -/
def Dev.calibrate (d : Dev) (user : Nat → Int) : Dev :=
  (List.range 424).foldl (fun d i => d.setReg (rCalItem i) (calWord i (user i))) d

/-- The effective value of a signed calibration item. -/
def Dev.calEff (d : Dev) (i : Nat) : Int :=
  let v := d.rf (rCalItem i) 32 16
  if v < 32768 then v else (v : Int) - 65536

/-- The set point fused for a core step, in mV (R469): codes 0-40 in 5 mV units above 0.65 V. -/
def fusedMv (k : Nat) : Nat := 650 + 5 * (Config.vcoreCode k % 41)

/-- PHASE of the start (R481), and whether the device has been released and runs: it is not held for a critical word (R410). -/
def Dev.phase (d : Dev) : Nat := d.rf rSbxStart 36 4
def Dev.inService (d : Dev) : Bool := decide (d.box.power = .on) && decide (d.phase = 6) && !d.box.wordHeld

/-- The core step in force changes (R521): every captured cluster records it. -/
def Dev.setEff (d : Dev) (w : Nat) : Dev :=
  if d.rf rPwrStatus 0 2 = w then d
  else (List.range Config.clusters).foldl (fun d c => d.cross c 2) (d.setRf rPwrStatus 0 2 w)

/-- The set point of a step is requested over AVSBus (R521, R547). -/
def Dev.requestVcore (d : Dev) (k : Nat) : Dev := (d.withBox (fun b => { b with vstep := k, avs := true })).say (.avs (fusedMv k))

/-- The core step (R521): the slowest of PWR_CTL.STEP, 1.5 GHz in CAUTION and the thermal limit. A slower step takes effect at once; a faster
one once the regulator has reported its set point. A CAUTION step leaves the set point alone. -/
def Dev.stepUpdate (d : Dev) : Dev :=
  let base := Nat.max (d.rf rPwrCtl 0 2) d.box.thermal
  let want := Nat.max base (if d.rb rPwrStatus 2 then 2 else 0)
  let d := if base = d.box.vstep then d else d.requestVcore base
  let eff := d.rf rPwrStatus 0 2
  if eff < want then d.setEff want
  else if want < eff ∧ (d.box.avs = false ∨ fusedMv want ≤ d.rf rPwrStatus 48 16) then d.setEff want
  else d

/-- The nominal value of a rail in mV (R545); for VCORE its set point, the lower of the old and the new while it ramps (R527). -/
def Dev.railMv (d : Dev) (r : Nat) : Nat :=
  if r = 0 then
    let v := d.rf rPwrStatus 48 16
    if d.box.avs then Nat.min v (fusedMv d.box.vstep) else v
  else [0, 800, 750, 1100, 400, 900, 3300, 1800].getD r 0

/-- Warning and reset level of a rail, in hundredths of a mV (R527). DEDUCED, assumption 92. -/
def Dev.warnLevel (d : Dev) (r : Nat) : Int := d.railMv r * (if r = 0 then 94 else 95) + 100 * d.calEff (40 + 2 * r)
def Dev.resetLevel (d : Dev) (r : Nat) : Int := d.railMv r * (if r = 0 then 88 else 90) + 100 * d.calEff (41 + 2 * r)

/-- An entry of the Signal Box log. DEDUCED, assumption 107. -/
def Dev.logBox (d : Dev) (e : LogEv) : Dev := d.withBox (fun b => { b with log := b.log ++ [e] })

/-- CAUTION_ENTRY (R528, R540, R542): `rail` reads `mv`, below its warning level. A second rail within CAUTION makes no entry. -/
def execCautionEntry (rail mv : Nat) (s : State) : Host.Outcome State Fault Refusal :=
  onUnit (decide (rail < 8)) s (fun d =>
    if d.box.power ≠ .on ∨ d.warnLevel rail ≤ 100 * mv then d
    else
      let w := d.box.caution
      if d.rb rPwrStatus 2 then
        if fld w 16 4 = rail ∧ mv < fld w 20 12 then d.withBox (fun b => { b with caution := setFld w 20 12 mv }) else d
      else
        let w := word (sat (2 ^ 32 - 1) (fld w 32 32 + 1) * 2 ^ 32 + mv % 4096 * 2 ^ 20 + rail * 2 ^ 16)
        let d := (d.withBox (fun b => { b with caution := w })).logBox (.caution rail mv)
        ((d.setRb rPwrStatus 2 true).setRb rPwrStatus 8 true).stepUpdate)

/-- CAUTION_EXIT (R528). -/
def execCautionExit (s : State) : Host.Outcome State Fault Refusal :=
  onDev s (fun d => if d.rb rPwrStatus 2 then (d.setRb rPwrStatus 2 false).stepUpdate else d)

/-- VCORE_SETPOINT_REPORTED (R521, R539): the regulator reports the set point last requested. -/
def execVcoreSetpointReported (s : State) : Host.Outcome State Fault Refusal :=
  onDev s (fun d =>
    if d.box.avs then
      ((d.setRf rPwrStatus 48 16 (fusedMv d.box.vstep)).withBox (fun b => { b with avs := false })).stepUpdate
    else d)

/-- The threshold of a thermal limit, in units of 0.125 °C (R549). -/
def thermalThreshold (k : Nat) : Int := if k = 1 then 776 else if k = 2 then 808 else 840

/-- The thermal limit for a hottest reading, where `now` is in force (R549): a limit is released 3 °C below its threshold. -/
def thermalStep (now : Nat) (hot : Int) : Nat :=
  let holds := fun k => decide (thermalThreshold k ≤ hot) || (decide (k ≤ now) && decide (thermalThreshold k - 24 < hot))
  if holds 3 then 3 else if holds 2 then 2 else if holds 1 then 1 else 0

/-- THERMAL_SENSOR_READ (R549): 40 readings in units of 0.125 °C, before their offsets. -/
def execThermalSensorRead (raw : List Int) (s : State) : Host.Outcome State Fault Refusal :=
  onUnit (decide (raw.length = 40)) s (fun d =>
    if d.box.power = .off then d
    else
      let hot := ((List.range 40).map (fun i => raw.getD i 0 + d.calEff i)).foldl (fun a b => if a < b then b else a) (raw.getD 0 0 + d.calEff 0)
      let d := d.withBox (fun b => { b with hot := hot, thermal := thermalStep b.thermal hot })
      if d.box.power = .on then d.stepUpdate else d)

/-- The open-drain and trigger pins (R293, R410, R483, R492, R504, R549), as asserted or not. -/
def Dev.threadStop (d : Dev) : Bool := d.thr.any (fun p => decide (p.2.run = .locked))
def Dev.alert (d : Dev) : Bool := decide (d.phase = 7) || decide (d.box.thermal = 3) || d.box.rngStopped || d.box.wordHeld
def Dev.thermtripped (d : Dev) : Bool := decide (d.box.power = .tripped)
def Dev.trigOut (d : Dev) : Bool := decide (d.rf rTrgStatus 0 3 = 2 ∨ d.rf rTrgStatus 0 3 = 3)

/-- The poison marks of a whole HBM line written with its bytes. -/
def Dev.pokeLine (d : Dev) (l : Nat) (bs : List PByte) : Dev :=
  ((List.range 8).foldl (fun d g => d.setMark (8 * l + g) (anyPoison ((bs.drop (8 * g)).take 8))) d).pokeBytes (64 * l) bs

/-- Every HBM line that a cluster held dirty keeps its last written-back value (R530). -/
def Dev.revertDirty (d : Dev) : Dev :=
  d.clu.foldl (fun d p => p.2.lines.foldl (fun d x => match x.old with | some bs => d.pokeLine x.line bs | none => d) d) d

/-- HBM alone: bytes, marks, and upsets. -/
def Mem.hbmOnly (m : Mem) : Mem :=
  { m with bytes := m.bytes.filter (fun p => decide (p.1 < Config.hbmEnd)), marks := m.marks.filter (fun p => decide (8 * p.1 < Config.hbmEnd)),
           sramUpset := [] }

/-- What a reset of the device leaves (R530, R537): everything is reset but the Through Line switches, and the always-on domain unless `cold`;
with `keep`, HBM and a frozen window stay. DEDUCED, assumption 63. -/
def Dev.halt (d : Dev) (cold keep : Bool) : Dev :=
  let b := d.box
  let e := { Dev.reset with
    mem := if keep then d.revertDirty.mem.hbmOnly else .reset
    ring := { Ring.reset with inserted := d.ring.inserted }
    trg := if keep && d.trg.frozen.isSome then
        { Trg.reset with clusters := d.trg.clusters, window := d.trg.window, region := d.trg.region, shares := d.trg.shares, frozen := d.trg.frozen }
      else .reset
    box := if cold then { SigBox.reset with floor := b.floor, resetN := b.resetN, power := b.power }
      else { SigBox.reset with
        power := b.power, resetN := b.resetN, kind := b.kind, floor := b.floor, log := b.log, caution := b.caution, thermal := b.thermal,
        hot := b.hot, scan := b.scan, strap := b.strap }
    out := d.out
    free := d.free }
  if cold then e
  else ((e.setRf rPwrStatus 48 16 (d.rf rPwrStatus 48 16)).setRb rPwrStatus 2 (d.rb rPwrStatus 2)).setReg rPwrCaution b.caution

/-- HBM enters or leaves self-refresh (R481, R536). -/
def Dev.selfRefresh (d : Dev) (on : Bool) : Dev := (List.range 4).foldl (fun d h => d.setRb (rHbmStatus h) 1 on) d

/-- A start of a kind begins (R481, R530, R540): phase 0, and then PHASE is 1. DESIGN CHOICE, assumption 65. -/
def Dev.startFrom (d : Dev) (kind : Nat) : Dev :=
  let d := d.halt (decide (kind = 0)) (decide (kind = 1 ∨ kind = 3 ∨ kind = 4 ∨ kind = 5))
  let d := d.withBox (fun b => { b with power := .on, kind := kind, caution := setFld b.caution 32 32 0, startTod := 0 })
  let d := (d.setReg rPwrCaution d.box.caution).calibrate (fun _ => 0)
  ((d.setRf rSbxStart 36 4 1).requestVcore 0).stepUpdate

/-- A start that waits for RESET_N (R481, R493, R530). DEDUCED, assumption 64. -/
def Dev.startOrHold (d : Dev) (kind : Nat) : Dev :=
  if d.box.resetN then d.startFrom kind else d.withBox (fun b => { b with power := .held, kind := kind })

/-- COLD_START (R481): PWR_GOOD rises with the given levels on GPIO[1:0] (R563). -/
def execColdStart (strap : Nat) (s : State) : Host.Outcome State Fault Refusal :=
  onUnit (decide (strap < 4)) s (fun d =>
    if d.box.power = .off then
      let d := (d.halt true false).startOrHold 0
      d.withBox (fun b => { b with strap := strap })
    else d)

/-- POWER_DOWN (R530, R534, R546): PWR_GOOD falls. -/
def execPowerDown (s : State) : Host.Outcome State Fault Refusal :=
  onDev s (fun d => (d.withBox (fun b => { b with power := .off })).halt true false)

/-- WARM_START (R530, R493, R570): RESET_N falls for 1 µs or more, or rises. -/
def execWarmStart (rise : Bool) (s : State) : Host.Outcome State Fault Refusal :=
  onDev s (fun d =>
    if d.box.resetN = rise then d
    else
      let d := d.withBox (fun b => { b with resetN := rise, scan := if rise then none else b.scan })
      if rise then (if d.box.power = .held then d.startFrom d.box.kind else d)
      else if d.box.power = .on ∨ d.box.power = .standby then
        (d.withBox (fun b => { b with power := .held, kind := 1 })).halt false true
      else d)

/-- POWER_FAIL_RESET (R529, R530): `rail` reads `mv`, at or below its reset level. -/
def execPowerFailReset (rail mv : Nat) (s : State) : Host.Outcome State Fault Refusal :=
  onUnit (decide (rail < 8)) s (fun d =>
    if d.box.power = .off ∨ d.box.power = .tripped ∨ d.box.power = .powerFail ∨ d.resetLevel rail < 100 * mv then d
    else ((d.withBox (fun b => { b with power := .powerFail })).halt false false).setRb rPwrStatus 2 false)

/-- POWER_FAIL_RESTART (R530). -/
def execPowerFailRestart (s : State) : Host.Outcome State Fault Refusal :=
  onDev s (fun d => if d.box.power = .powerFail then d.startOrHold 2 else d)

/-- CLOCK_FAULT_RESET (R520). -/
def execClockFaultReset (s : State) : Host.Outcome State Fault Refusal :=
  onDev s (fun d => if d.box.power = .on then (d.withBox (fun b => { b with power := .clockFault })).halt false true else d)

/-- PLL_RELOCK (R530). -/
def execPllRelock (s : State) : Host.Outcome State Fault Refusal :=
  onDev s (fun d => if d.box.power = .clockFault then d.startOrHold 5 else d)

/-- WAKE (R563, R570): ignored outside STANDBY and while RESET_N is low. -/
def execWake (s : State) : Host.Outcome State Fault Refusal :=
  onDev s (fun d => if d.box.power = .standby ∧ d.box.resetN = true then d.startFrom 4 else d)

/-- THERMTRIP (R549): every domain but the always-on one stops, with no write-back. -/
def execThermtrip (s : State) : Host.Outcome State Fault Refusal :=
  onDev s (fun d =>
    if d.box.power = .off ∨ d.box.power = .tripped then d
    else ((d.withBox (fun b => { b with power := .tripped })).halt false true).selfRefresh true)

/-- The IDCODE of the boundary-scan port (R564). -/
def jtagIdcode : BitVec 32 := 0x1960056B

/-- EXTEST, EXTEST_PULSE and EXTEST_TRAIN (R564), which act as BYPASS while RESET_N is high: the boundary-scan cells are driven only while RESET_N is low.
DEDUCED, assumption 108. -/
def execExtest (cells : Nat) (s : State) : Host.Outcome State Fault Refusal :=
  onDev s (fun d => if d.box.resetN then d else d.withBox (fun b => { b with scan := some cells }))

end Sys2Proof.Machine
end

