-- ==== Sys2Proof/Machine/Resets.lean ====
section
/-! DEFINITION. Thread restart, cluster reset, device soft reset and STANDBY entry through PWR_RSTCMD (R531-R536), NAP and DOZE (R534, R535), and the
events that such an action waits for. -/
namespace Sys2Proof.Machine

open Sys2Proof

/-- The start-table entry of a thread (R474, THREADS). -/
def Dev.tstart (d : Dev) (g : Nat) : TStart := SMap.get (fun _ => TStart.reset) d.tt.threads g

/-- A thread at a release (R124, R481, R531 step 5): every register at its reset value, SENTRY, EDTB and TSBR and, outside the pool, PC and TS
from the start table; pending interrupts kept where `irqs` says so. -/
def Dev.freshThread (d : Dev) (irqs : Bool) (g : Nat) : Thread :=
  let x := d.tstart g
  let t := { Thread.reset with up := x.up, down := x.down, irqs := if irqs then (d.thread g).irqs else [] }
  if d.inPool g then t else { t with run := .running, pc := x.pc &&& ~~~3#64, ts := x.ts &&& 0xBF7F#64 }

/-- The threads of a cluster. -/
def threadsOf (c : Nat) : List Nat := (List.range 96).map (fun l => 96 * c + l)

/-- Every thread of cluster `c` as at a release. -/
def Dev.freshThreads (d : Dev) (irqs : Bool) (c : Nat) : Dev :=
  (threadsOf c).foldl (fun d g => d.setThread g (d.freshThread irqs g)) d

/-- Dirty lines of the cache part are written back, and the cache part is empty (R531 step 4, R535, R536). -/
def Dev.flushCache (d : Dev) (c : Nat) : Dev :=
  let x := d.cluster c
  x.lines.foldl Dev.writeBack (d.setCluster c { x with lines := [] })

/-- Addresses from `a` to `b`, `b` apart, read as zero with no mark. -/
def Dev.zeroRange (d : Dev) (a b : Nat) : Dev :=
  let out := fun k => decide (k < a ∨ b ≤ k)
  { d with mem := { d.mem with
    bytes := d.mem.bytes.filter (fun p => out p.1), marks := d.mem.marks.filter (fun p => out (8 * p.1)),
    sramUpset := d.mem.sramUpset.filter (fun p => out p.1) } }

/-- The cores of cluster `c` have their clock and an empty branch-target buffer. -/
def Dev.freshCores (d : Dev) (c : Nat) : Dev :=
  { d with gated := d.gated.filter (fun k => decide (k / 12 ≠ c)), btb := d.btb.filter (fun p => decide (p.1 / 128 / 12 ≠ c)) }

/-- Steps 3-6 of a cluster reset (R531); no action on a cluster that is not released, or naps (R542). -/
def Dev.resetCluster (d : Dev) (c : Nat) : Dev :=
  if !d.clusterLive c then d
  else
    let d := (threadsOf c).foldl Dev.abandonThread d
    let d := ((d.flushCache c).zeroRange (Config.storeBase + 0x1000000 * c + 0x3FB000) (Config.storeBase + 0x1000000 * c + 0x400000)).freshCores c
    let d := d.freshThreads false c
    (d.setCluster c { d.cluster c with held := false, ccc := 0 }).takeCkpt c true

/-- Steps 3-5 of a thread restart (R532). -/
def Dev.restartThread (d : Dev) (g : Nat) : Dev :=
  let locked := decide ((d.thread g).run = .locked)
  let d := d.abandonThread g
  let t := d.thread g
  let x := d.tstart g
  let t := { t with
    lp0 := { t.lp0 with ln := 0 }, lp1 := { t.lp1 with ln := 0 }, lp2 := { t.lp2 with ln := 0 }
    wd := 0, es := .zero, mc := none, shadow := none, fps := setBit t.fps 19 false, irqs := [], releasing := false }
  let t := if d.inPool g then { t with run := .free }
    else { t with run := .running, pc := x.pc &&& ~~~3#64, ts := x.ts &&& 0xBF7F#64 }
  ((d.setThread g t).capture (clusterOf g) 0x0A (localOf g) (if locked then 4 else 3) 0 []).logBox (.threadRestart g)

/-- A thread that has stopped has nothing outstanding (R531 step 2, R532 steps 1 and 2). -/
def Thread.still (t : Thread) : Bool := t.sb.isEmpty && t.posts.isEmpty && t.fpOut.isEmpty
def Dev.clusterStill (d : Dev) (c : Nat) : Bool :=
  !d.clusterLive c || ((threadsOf c).all (fun g => (d.thread g).still)
    && d.yard.moves.all (fun m => decide ((d.track m.1).home ≠ c ∧ (d.track m.1).target ≠ c)))

/-- Steps 3-6 of STANDBY entry (R536). -/
def Dev.enterStandby (d : Dev) : Dev :=
  let d := (List.range Config.clusters).foldl Dev.flushCache d
  ((d.withBox (fun b => { b with power := .standby })).halt false true).selfRefresh true

/-- The action of PWR_RSTCMD in progress is finished where what it stops is still. -/
def Dev.rstFinish (d : Dev) (w : Word) : Option Dev :=
  let done := fun (d : Dev) => d.withBox (fun b => { b with rst := none })
  match fld w 0 3 with
  | 1 =>
    let g := fld w 16 12
    if (d.thread g).still then some (done (d.restartThread g)) else none
  | 2 =>
    let cs := clustersOf (fld w 32 32)
    if cs.all d.clusterStill then some ((done (cs.foldl Dev.resetCluster d)).logBox (.clusterReset (fld w 32 32))) else none
  | 4 => if (List.range Config.clusters).all d.clusterStill then some d.enterStandby else none
  | _ => none

/-- A PWR_RSTCMD value in force begins its action (R533, R536 steps 1 and 2). An OP with no action stays as written. -/
def Dev.rstBegin (d : Dev) (w : Word) : Dev :=
  let op := fld w 0 3
  let idle := decide (op = 0 ∨ 5 ≤ op) || (decide (op = 1) && decide (Config.threads ≤ fld w 16 12)) || (decide (op = 2) && decide (fld w 32 32 = 0))
  if idle then d.setReg rPwrRstcmd w
  else
    let d := (d.setReg rPwrRstcmd (setFld w 0 3 0)).withBox (fun b => { b with rst := some w })
    if op = 3 then (d.withBox (fun b => { b with rst := none })).startFrom 3
    else if op = 4 then
      let d := d.enterOut
      (List.range 8).foldl (fun d p => d.setReg (rEthStatus p) (d.reg (rEthStatus p) &&& 7#64)) d
    else d

/-- What can be finished is finished, and then a value accepted meanwhile is applied (R533). DESIGN CHOICE, assumption 62. -/
def Dev.rstSettle : Nat → Dev → Dev
  | 0, d => d
  | n + 1, d =>
    match d.box.rst with
    | none => d
    | some w =>
      match d.rstFinish w with
      | none => d
      | some d =>
        match d.box.rstNext with
        | none => d
        | some v => Dev.rstSettle n ((d.withBox (fun b => { b with rstNext := none })).rstBegin v)

def Dev.rstTry (d : Dev) : Dev := d.rstSettle 2

/-- A value of PWR_RSTCMD that the Interlock lets through (R533). DEDUCED, assumption 61. -/
def Dev.rstAccept (d : Dev) (w : Word) : Dev :=
  let w := w &&& 0xFFFFFFFF0FFF0007#64
  if d.box.rst.isSome then d.withBox (fun b => { b with rstNext := some w }) else (d.rstBegin w).rstTry

/-- STORE_BUFFER_DRAIN (R316). -/
def execStoreBufferDrain (g : Nat) (s : State) : Host.Outcome State Fault Refusal :=
  onUnit (decide (g < Config.threads)) s (fun d => (d.onThread g (fun g d =>
    if d.clusterLive (clusterOf g) then (d.drainOldest g).tryRelease g else d)).rstTry)

/-- FLOATING_OP_COMPLETE (R245): outstanding operation `k` of thread `g` completes, in program order counted from 0. -/
def execFloatingOpComplete (g k : Nat) (s : State) : Host.Outcome State Fault Refusal :=
  onUnit (decide (g < Config.threads)) s (fun d => (d.onThread g (fun g d =>
    let t := d.thread g
    match t.fpOut[k]? with
    | some o => if d.clusterLive (clusterOf g) then d.setThread g (completeFp t k o) else d
    | none => d)).rstTry)

/-- POST_RESULT of the POST `tag`. -/
def execPostResult (tag : Nat) (s : State) : Host.Outcome State Fault Refusal := onDev s (fun d => (d.returnPost tag).rstTry)

/-- MOVE_COMPLETE of track `t` (R103). -/
def execMoveComplete (t : Nat) (s : State) : Host.Outcome State Fault Refusal :=
  onUnit (decide (t < 65536)) s (fun d => if (d.cluster (d.track t).target).held then d else (d.completeMove t).rstTry)

/-- NAP_ENTRY of cluster `c` (R534, R535): it homes no track and every thread of it is FREE with nothing outstanding. -/
def execNapEntry (c : Nat) (s : State) : Host.Outcome State Fault Refusal :=
  onUnit (decide (c < Config.clusters)) s (fun d =>
    let idle := (threadsOf c).all (fun g => decide ((d.thread g).run = .free) && (d.thread g).still)
    if d.clusterLive c && d.rb rPwrNapen c && decide (d.homed c = 0) && idle && !d.resetting c then
      let d := (d.flushCache c).zeroRange (Config.storeBase + 0x1000000 * c) (Config.storeBase + 0x1000000 * (c + 1))
      (d.setCluster c { d.cluster c with napping := true, held := false }).setRb rPwrStatus (16 + c) true
    else d)

/-- NAP_EXIT of cluster `c` (R535). -/
def execNapExit (c : Nat) (s : State) : Host.Outcome State Fault Refusal :=
  onUnit (decide (c < Config.clusters)) s (fun d =>
    if (d.cluster c).napping && !d.rb rPwrNapen c then
      let d := ((d.freshThreads true c).freshCores c).setCluster c { d.cluster c with napping := false }
      (d.setRb rPwrStatus (16 + c) false).cross c 5
    else d)

/-- DOZE_ENTRY of a core (R534): none of its threads is READY, WAITING or in ENTRY. DEDUCED, assumption 91. -/
def execDozeEntry (core : Nat) (s : State) : Host.Outcome State Fault Refusal :=
  onUnit (decide (core < 384)) s (fun d =>
    if d.clusterLive (core / 12) && !d.gated.contains core
        && (List.range 8).all (fun i => decide ((d.thread (8 * core + i)).run ≠ .running)) then { d with gated := d.gated ++ [core] }
    else d)

/-- DOZE_EXIT of a core (R534): a dispatch, a response or a pending interrupt has made one of its threads ready. -/
def execDozeExit (core : Nat) (s : State) : Host.Outcome State Fault Refusal :=
  onUnit (decide (core < 384)) s (fun d =>
    if (List.range 8).any (fun i => decide ((d.thread (8 * core + i)).run = .running) || !(d.thread (8 * core + i)).irqs.isEmpty) then
      { d with gated := d.gated.filter (fun k => k ≠ core) }
    else d)

end Sys2Proof.Machine
end

