-- ==== Sys2Proof/Machine/Interrupts.lean ====
section
/-! DEFINITION. The interrupt router (R289, R290) and interrupt entry (R285, R291). -/
namespace Sys2Proof.Machine

open Sys2Proof

/-- The sources that are asserted as long as a condition holds (R114, R289, R314, R362, R363, R402, R424, R513, R538, R554). DEDUCED, assumption 29. -/
def Dev.asserted (d : Dev) (source : Nat) : Bool :=
  match source with
  | 0 => d.rb rYrdCtl 2 && decide (d.rf rYrdErr 0 5 ≠ 0)
  | 1 => d.rb rJnlCtl 25 && decide (d.rf rJnlErr 0 4 ≠ 0)
  | 2 => d.rb rPeErr 2 && d.rb rPeErr 0
  | 3 => d.rb rMicCtl 0 && decide (d.rf rMicStatus 0 5 ≠ 0)
  | 4 => d.rb rTrgCtl 2 && decide (d.rf rTrgStatus 3 5 ≠ 0)
  | 5 => d.rb rPwrCtl 2 && d.rb rPwrStatus 8
  | 6 => d.rb rKeyStatus 3 && d.rb rKeyStatus 2
  | 48 => d.rb rLlCtl 0 && decide (d.rf rLlErr 0 10 ≠ 0)
  | n =>
    if 8 ≤ n ∧ n < 16 then d.rb (rEthPtpctl (n - 8)) 2 && (decide (0 < d.ptpOcc (n - 8)) || d.rb (rEthPtptxcmd (n - 8)) 1)
    else false

/-- The route of a source (R289). -/
def Dev.route (d : Dev) (source : Nat) : Word := SMap.get (fun _ => (0 : Word)) d.box.routes source

/-- A level source that is no longer asserted can rise again. -/
def Dev.refreshLevels (d : Dev) : Dev := d.withBox (fun b => { b with taken := b.taken.filter d.asserted })

/-- The pending bit of a thread is set with its priority, or its latched priority rises (R290): a boundary input of the cluster. -/
def Dev.setIrq (d : Dev) (g : Nat) (i : PendingIrq) : Dev :=
  let t := d.thread g
  let irqs := match t.irqs.find? (fun j => decide (j.world = i.world ∧ j.vector = i.vector)) with
    | some j => t.irqs.map (fun k => if k = j then { j with prio := Nat.max j.prio i.prio } else k)
    | none => t.irqs ++ [i]
  (d.setThread g { t with irqs := irqs }).capture (clusterOf g) 9 (localOf g) i.vector 0 (leBytes 16 (i.world.toNat + 16 * i.prio))

/-- The router takes the present event of a source (R289, R290): an edge that was made, or an assertion; on an EDGE route only its
rise counts. -/
def Dev.routeEvent (d : Dev) (source : Nat) : Dev :=
  let pulse := d.edges.contains source
  let level := d.asserted source
  let rise := pulse || (level && !d.box.taken.contains source)
  let w := d.route source
  let g := fld w 0 12
  let d := { d with edges := d.edges.filter (fun n => n ≠ source) }
  let d := if level && !d.box.taken.contains source then d.withBox (fun b => { b with taken := b.taken ++ [source] }) else d
  if bit w 31 && (if bit w 30 then rise else pulse || level) && decide (g < Config.threads) && !d.replaying (clusterOf g) then
    d.setIrq g ⟨bit w 24, fld w 16 8, fld w 12 4⟩
  else d

/-- Whether the event of a source is held at its cluster's boundary: a checkpoint is in progress there (R497). DEDUCED, assumption 135. -/
def Dev.eventHeld (d : Dev) (source : Nat) : Bool := bit (d.route source) 31 && (d.cluster (clusterOf (fld (d.route source) 0 12))).held

/-- INTERRUPT_PENDING (R290). -/
def execInterruptPending (source : Nat) (s : State) : Host.Outcome State Fault Refusal :=
  onUnit (decide (source < 4096)) s (fun d => if d.eventHeld source then d else d.routeEvent source)

/-- INTERRUPT_ENTRY of thread `g` (R285, R290, R291): a FREE pool thread and a LOCKED one keep it pending; a pending FLOATING comes first (R295).
DEDUCED, assumption 28. -/
def execInterruptEntry (g : Nat) (s : State) : Host.Outcome State Fault Refusal :=
  threadEvent g s (fun g d =>
    let t := d.thread g
    let takes := decide (t.run = .running) || (decide (t.run = .free) && !d.inPool g)
    match t.eligibleIrq with
    | none => d
    | some i =>
      if d.coreRuns g && takes && !t.commitDue && !t.releasing && t.entryReady then
        match (if t.floatingPend then enter ((d.ctx g).withT t.takeFloating.2) 9 none t.takeFloating.1 0
          else enter (d.ctx g) i.vector (some i) 0 0) with
        | some c => c.commit
        | none => d
      else d)

end Sys2Proof.Machine
end

