-- ==== Sys2Proof/Machine/Train.lean ====
section
/-! DEFINITION. The Train Register: freezing, checkpoints and bundles as bytes, export, import and replay (R494-R518). -/
namespace Sys2Proof.Machine

open Sys2Proof

/-- MSI-X functions beside those of the queues: PF0 and PF2 of a controller. -/
def pf0 : Nat := 33
def pf2 : Nat := 34

def Dev.trgState (d : Dev) : Nat := d.rf rTrgStatus 0 3
def Dev.setTrgState (d : Dev) (n : Nat) : Dev := d.setRf rTrgStatus 0 3 n
def Dev.rstate (d : Dev) : Nat := d.rf rTrgRplCtl 13 3
def Dev.setRstate (d : Dev) (n : Nat) : Dev := d.setRf rTrgRplCtl 13 3 n
def Dev.withReplay (d : Dev) (f : Replay → Replay) : Dev := d.withTrg (fun t => { t with replay := f t.replay })

/-- The offset of a store address of cluster `c` in the two store images of a part (R508). -/
def imageOffset (c a : Nat) : Option Nat :=
  let s := Config.storeBase + 0x1000000 * c
  let k := Config.codeBase + 0x1000000 * c
  if s ≤ a ∧ a < s + 0x400000 then some (a - s)
  else if k ≤ a ∧ a < k + 0x100000 then some (0x400000 + (a - k))
  else none
/-- The store address of an offset in the images. -/
def imageAddr (c o : Nat) : Nat :=
  if o < 0x400000 then Config.storeBase + 0x1000000 * c + o else Config.codeBase + 0x1000000 * c + (o - 0x400000)

def FImage.put (x : FImage) (o : Nat) (b : PByte) : FImage :=
  { x with bytes := SMap.set (fun _ => (0 : Byte)) x.bytes o (if b.poison then 0 else b.val)
           marks := if b.poison then SMap.set (fun _ => false) x.marks (o / 8) true else x.marks }

/-- The freeze image of cluster `c` (R504): both stores, with the lines of the cache part in their ways. -/
def Dev.freezeImage (d : Dev) (c : Nat) : FImage :=
  let x : FImage := ⟨d.stamp c, [], []⟩
  let x := d.mem.bytes.foldl (fun x p => match imageOffset c p.1 with | some o => x.put o (d.readByte p.1) | none => x) x
  let x := d.mem.marks.foldl (fun x p => match imageOffset c (8 * p.1) with
    | some o => { x with marks := SMap.set (fun _ => false) x.marks (o / 8) true } | none => x) x
  (d.cluster c).lines.foldl (fun x l =>
    (List.range 64).foldl (fun x i => match imageOffset c (d.posAddr c l + i) with
      | some o => x.put o (d.readByte (64 * l.line + i)) | none => x) x) x

/-- The END record and the image of one captured cluster (R504). The spec gives the signal of the record that takes the freeze instant no
number: it is a free value. -/
def Dev.freezeCluster (st : Dev × SMap FImage) (c : Nat) : Dev × SMap FImage :=
  let d := st.1.draw.2.cross c (st.1.draw.1.toNat % 256)
  (d, SMap.set (fun _ => FImage.mk 0 [] []) st.2 c (d.freezeImage c))

/-- FREEZE_INSTANT (R504, R518): nothing before POSTTRIG has passed; judged when no captured cluster has a checkpoint in progress.
DESIGN CHOICE, assumption 54. -/
def execFreezeInstant (s : State) : Host.Outcome State Fault Refusal :=
  onDev s (fun d =>
    match d.trg.pend with
    | none => d
    | some t =>
      let cs := clustersOf d.trg.clusters
      if d.trgState ≠ 1 ∨ d.now < t.due ∨ cs.any (fun c => (d.cluster c).held) then d
      else
        let r := cs.foldl Dev.freezeCluster (d, [])
        let d := r.1.withTrg (fun x => { x with pend := none, frozen := some ⟨t, d.now, d.jnl.epoch, r.2⟩ })
        ((((((d.setTrgState 2).setRf rTrgStatus 20 4 t.code).setRf rTrgStatus 24 8 t.cluster).setRf rTrgStatus 32 8 t.localId).setRb rTrgStatus 3 true).setRb
          rTrgCtl 0 false))

/-- TRIG_IN_EDGE (R503). -/
def execTrigInEdge (s : State) : Host.Outcome State Fault Refusal :=
  onDev s (fun d => if d.inService then d.trigger 6 0xFF 0xFF 0 else d)

/-- TRG_CTL.FREEZE is written 1 (R513): trigger 5, or nothing when not capturing. -/
def Dev.freezeWrite (d : Dev) : Dev := if d.trgState = 1 then d.trigger 5 0xFF 0xFF 0 else d.setRb rTrgCtl 0 false

/-- TRG_CTL.REARM is written 1 (R506, R513): the window is discarded and capture armed at the next boundary; ignored while exporting.
DEDUCED, assumption 55. -/
def Dev.rearmWrite (d : Dev) : Dev :=
  if d.trgState = 3 then d.setRb rTrgCtl 1 false else d.withTrg (fun t => { t with arm := true })

/-- Bytes laid out at ascending offsets, zero between them, `n` in all. -/
def layoutBytes (n : Nat) (segs : List (Nat × List Byte)) : List Byte :=
  padTo n (segs.foldl (fun acc s => (acc ++ List.replicate (s.1 - acc.length) 0#8) ++ s.2) [])

/-- The state of a thread as a checkpoint holds it (R498). -/
def threadBytes (t : Thread) : List Byte :=
  let w := fun (x : Word) => leBytes 8 x.toNat
  let ts := (t.ts &&& 0xFFFF#64) ||| (if t.mc.isSome then 0x10000#64 else 0)
  let run := match t.run with | .free => 0 | .running => 1 | .locked => 4
  let mc : Nat × Nat := match t.mc with | some m => (m.mask.toNat, m.addr.toNat) | none => (0, 0)
  let regs := (List.range 231).map (fun i => t.physGet (i + 1))
  let marks := [t.fl.poison, t.es.poison] ++ regs.map (fun r => r.poison)
    ++ (List.range 16).map (fun f => (t.freg (BitVec.ofNat 4 f)).poison) ++ (List.range 8).map (fun k => (t.acc (BitVec.ofNat 3 k)).poison)
  let bits := (List.range marks.length).map (fun i => (marks.getD i false).toNat * 2 ^ i)
  layoutBytes 3072 [
    (0, w t.pc ++ w t.fl.val ++ w ts ++ leBytes 1 run ++ leBytes 1 t.wsel ++ leBytes 1 t.wd),
    (32, w t.cnt ++ w t.es.val ++ leBytes 8 mc.1 ++ leBytes 8 mc.2
      ++ w t.lp0.la ++ w t.lp1.la ++ w t.lp2.la ++ w t.lp0.lb ++ w t.lp1.lb ++ w t.lp2.lb ++ w t.lp0.ln ++ w t.lp1.ln ++ w t.lp2.ln
      ++ (regs.map (fun r => w r.val)).flatten
      ++ ((List.range 16).map (fun f => w (t.freg (BitVec.ofNat 4 f)).val)).flatten
      ++ vals ((lazyImage t).take 264)
      ++ w t.up.sentry ++ w t.down.sentry ++ w t.up.edtb ++ w t.down.edtb ++ w t.up.tsbr ++ w t.down.tsbr
      ++ w t.sepc ++ w t.sefl.val ++ w t.sets ++ w t.xceil ++ w t.fps ++ w t.fpepc
      ++ (match t.shadow with | some s => leBytes 8 (fld s.bits 0 16 + s.left % 4 * 2 ^ 16) | none => leBytes 8 0)
      ++ leBytes 40 bits.sum
      ++ padTo 16 t.lp0.head ++ padTo 16 t.lp1.head ++ padTo 16 t.lp2.head)]

/-- The pending interrupts of a thread as a checkpoint holds them (R498). -/
def irqBytes (t : Thread) : List Byte :=
  let of := fun (w : Bool) => t.irqs.filter (fun i => i.world == w && decide (32 ≤ i.vector))
  let pend := fun (w : Bool) => leBytes 28 ((of w).map (fun i => 2 ^ (i.vector - 32))).sum
  let prio := fun (w : Bool) => leBytes 112 ((of w).map (fun i => i.prio % 16 * 16 ^ (i.vector - 32))).sum
  pend false ++ pend true ++ prio false ++ prio true

/-- A branch-target buffer entry as a checkpoint holds it (R498). -/
def btbBytes (e : BtbEntry) (rank : Nat) (code : Nat → Byte) : List Byte :=
  leBytes 8 (1 + rank * 2 + e.addr % 2 ^ 48 / 512 * 512) ++ leBytes 8 e.target ++ (List.range 16).map (fun i => code (e.target + i))

/-- The cache tag of a line (R498): its age is its rank in its set, most recently used first. -/
def tagWord (x : CLine) (age : Nat) : Nat :=
  1 + x.writable.toNat * 2 + x.old.isSome.toNat * 4 + age % 16 * 16 + x.line * 64 % 2 ^ 48

/-- A checkpoint of cluster `c` in 1 MiB (R498). Which thread each pipe last issued, and which core was granted the code store last, are free
values: the model does not keep them. DESIGN CHOICE, assumption 53. -/
def ckptBytes (c : Nat) (x : Ckpt) (sets : Nat) (code : Nat → Byte) : List Byte :=
  let t := fun l => SMap.get (fun _ => Thread.reset) x.thr (96 * c + l)
  let set := fun s => x.clu.lines.filter (fun l => decide (sets ≠ 0 ∧ l.line % sets = s))
  layoutBytes 0x100000 [
    (0, "RT96CKPT".toList.map (fun c => BitVec.ofNat 8 c.toNat)),
    (8, leBytes 8 x.ccc ++ leBytes 1 c),
    (0x18, (List.range 25).map (fun i => BitVec.ofNat 8 (Config.freeWord (x.drawn + i)).toNat)),
    (0x400, ((List.range 96).map (fun l => irqBytes (t l))).flatten),
    (0x8000, ((List.range 96).map (fun l => threadBytes (t l))).flatten),
    (0x50000, ((List.range 12).map (fun core => ((List.range 128).map (fun s =>
      let es := SMap.get (fun _ => []) x.btb (128 * (12 * c + core) + s)
      padTo 128 ((List.range es.length).map (fun w => match es[w]? with | some e => btbBytes e w code | none => [])).flatten)).flatten)).flatten),
    (0x80000, ((List.range sets).map (fun s => ((List.range 16).map (fun w =>
      match (set s).findIdx? (fun l => decide (l.way = w)) with
      | some age => (match (set s)[age]? with | some l => leBytes 8 (tagWord l age) | none => leBytes 8 0)
      | none => leBytes 8 0)).flatten)).flatten)]

/-- A capture record as bytes (R496), and records read back from a stream. -/
def recBytes (r : CapRec) : List Byte :=
  let units := (r.payload.length + 15) / 16
  leBytes 6 r.stamp ++ leBytes 1 r.kind ++ leBytes 1 units ++ leBytes 1 r.loc ++ leBytes 1 r.sub ++ leBytes 6 r.addr ++ padTo (16 * units) r.payload
def parseRecs : Nat → List Byte → List CapRec
  | 0, _ => []
  | n + 1, bs =>
    let f := fun o k => ofLe ((bs.drop o).take k)
    if bs.length < 16 ∨ f 6 1 = 0 then []
    else ⟨f 0 6, f 6 1, f 8 1, f 9 1, f 10 6, (bs.drop 16).take (16 * f 7 1)⟩ :: parseRecs n (bs.drop (16 + 16 * f 7 1))

/-- Marked bytes of a line payload (R495). -/
def lineOfPayload (bs : List Byte) : List PByte :=
  let mask := ofLe ((bs.drop 64).take 1)
  (List.range 64).map (fun i => ⟨bs.getD i 0, mask.testBit (i / 8)⟩)

/-- Bytes and marks set as they are, a line's worth at `a`. -/
def Dev.pokeMarked (d : Dev) (a : Nat) (bs : List PByte) : Dev :=
  ((List.range ((bs.length + 7) / 8)).foldl (fun d g => d.setMark (a / 8 + g) (anyPoison ((bs.drop (8 * g)).take 8))) d).pokeBytes a bs

/-- Undo records applied in reverse stream order (R499). -/
def Dev.undoRecs (d : Dev) (rs : List CapRec) : Dev :=
  rs.reverse.foldl (fun d r => if r.kind = 0x80 then d.pokeMarked r.addr (lineOfPayload r.payload) else d) d

/-- The part of a bundle for cluster `c` (R508): the first checkpoint held, the images, the maps, the records. -/
def Dev.partBytes (d : Dev) (c : Nat) (im : FImage) : List Byte :=
  let x := d.share c
  let store := (List.range 0x500000).map (fun o => SMap.get (fun _ => (0 : Byte)) im.bytes o)
  let map := fun (g0 n : Nat) => (List.range n).map (fun i => BitVec.ofNat 8
    (((List.range 8).map (fun j => (SMap.get (fun _ => false) im.marks (g0 + 8 * i + j)).toNat * 2 ^ j)).sum))
  let start := ({ d with mem := { Mem.reset with bytes := im.bytes.map (fun (p : Nat × Byte) => (imageAddr c p.1, p.2)) } }).undoRecs x.recs
  let ck := match x.ckpts with
    | k :: _ => ckptBytes c k (d.cacheSets c) start.byteAt
    | [] => List.replicate 0x100000 0#8
  let recs := (x.recs.map recBytes).flatten
  ck ++ store ++ map 0 0x10000 ++ map 0x80000 0x4000 ++ padTo ((recs.length + 4095) / 4096 * 4096) recs

/-- The clusters of a mask for which the frozen window holds a part. -/
def Frozen.parts (f : Frozen) (mask : Nat) : List Nat := (clustersOf mask).filter (fun c => f.images.any (fun p => p.1 == c))

/-- A bundle (R508). -/
def Dev.bundleBytes (d : Dev) (f : Frozen) (mask : Nat) : List Byte :=
  let ps := f.parts mask
  let parts : List (Nat × List Byte) := ps.map (fun c => (c, d.partBytes c (SMap.get (fun _ => FImage.mk 0 [] []) f.images c)))
  let body := (parts.map (fun p => p.2)).flatten
  let size := 4096 + body.length
  let entries := (List.range 32).map (fun c =>
    match parts.find? (fun (p : Nat × List Byte) => p.1 == c) with
    | none => leBytes 32 0
    | some p =>
      let before := ((parts.filter (fun (q : Nat × List Byte) => decide (q.1 < c))).map (fun (q : Nat × List Byte) => q.2.length)).sum
      let k := (d.share c).ckpts.head?
      leBytes 8 (4096 + before) ++ leBytes 8 p.2.length ++ leBytes 8 ((k.map (fun x => x.ccc)).getD 0 % 2 ^ 48)
        ++ leBytes 6 (SMap.get (fun _ => FImage.mk 0 [] []) f.images c).stamp
        ++ leBytes 2 ((d.share c).ovf.toNat + 2 * ((k.map (fun x => x.fresh)).getD false).toNat))
  layoutBytes 4096 [
    (0, "RT96TRNB".toList.map (fun c => BitVec.ofNat 8 c.toNat)),
    (8, leBytes 2 1 ++ leBytes 2 0x9600 ++ leBytes 1 0xA1 ++ leBytes 1 f.trig.code ++ leBytes 2 f.trig.tag
      ++ d.tt.digest ++ d.tt.cpDigest ++ d.tt.clpDigest),
    (112, leBytes 16 Config.devId ++ leBytes 8 f.tod ++ leBytes 8 f.epoch ++ leBytes 4 ((ps.map (fun c => 2 ^ c)).sum)
      ++ leBytes 1 f.trig.cluster ++ leBytes 1 f.trig.localId),
    (152, leBytes 8 f.trig.stamp ++ leBytes 8 size ++ shake256 body),
    (256, entries.flatten)] ++ body

/-- Bytes written to the host's extents in order, the first 8 last (R507). -/
def Dev.hostExtents (d : Dev) (ctl : Nat) (extents : List (Nat × Nat)) (bs : List PByte) : Dev :=
  let all := extents.foldl (fun (st : Dev × Nat) e =>
    let piece := (bs.drop st.2).take e.2
    let head := if st.2 = 0 then 8 else 0
    (if piece.drop head = [] then st.1 else st.1.say (.hostWrite ctl pf2 (e.1 + head) (piece.drop head)), st.2 + e.2)) (d, 0)
  match extents with
  | e :: _ => all.1.say (.hostWrite ctl pf2 e.1 (bs.take 8))
  | [] => all.1

/-- An export or import ends (R516): with an error cause, or done with the message of PF2. -/
def Dev.expFail (d : Dev) (cause : Nat) : Dev :=
  let d := (((d.setRb rTrgExpCtl 0 false).setRb rTrgExpCtl 2 true).setRf rTrgExpCtl 18 3 cause).setRb rTrgStatus 5 true
  if d.trgState = 3 then d.setTrgState 2 else d
def Dev.expDone (d : Dev) : Dev :=
  let d := (d.setRb rTrgExpCtl 0 false).setRb rTrgExpCtl 1 true
  let d := if d.trgState = 3 then d.setTrgState 2 else d
  d.say (.msix (d.rf rTrgExpCtl 4 1) pf2 (d.rf rTrgExpCtl 21 11))

/-- TRG_EXP_CTL.GO is written 1 (R516). -/
def Dev.expGo (d : Dev) : Dev :=
  if d.rb rTrgExpCtl 3 then (if d.rstate = 1 then d else d.expFail 1)
  else if d.trgState = 2 ∧ d.trg.frozen.isSome then d.setTrgState 3 else d.expFail 1

/-- The controller of an export or import in progress loses its link, PF2 is reset, or PERST_N falls (R518). -/
def Dev.expCancel (d : Dev) (ctl : Nat) : Dev :=
  if d.rb rTrgExpCtl 0 && decide (d.rf rTrgExpCtl 4 1 = ctl) then d.expFail 3 else d

/-- An import (R510 step 4, R516): the part of the one cluster named goes to TRG_RPL_BASE. DEDUCED, assumption 59. -/
def Dev.importPart (d : Dev) (mask total : Nat) (bs : List Byte) : Dev :=
  let f := fun o n => ofLe ((bs.drop o).take n)
  match clustersOf mask with
  | [n] =>
    let off := f (256 + 32 * n) 8
    let len := f (264 + 32 * n) 8
    let base := d.rf rTrgRplBase 12 36 * 4096
    if total < 4096 ∨ total < off + len then d.expFail 2
    else if f 8 2 ≠ 1 ∨ f 10 2 ≠ 0x9600 ∨ f 12 1 ≠ 0xA1 ∨ (bs.drop 16).take 96 ≠ d.tt.digest ++ d.tt.cpDigest ++ d.tt.clpDigest then d.expFail 5
    else if off = 0 ∨ base < 0x100000 ∨ Config.hbmEnd < base + len then d.expFail 4
    else
      ((d.writeBytes base (clean (padTo len (bs.drop off)))).withReplay (fun x => { x with
        field := n, imported := true, len := len, endAt := f (280 + 32 * n) 6 })).expDone
  | _ => d.expFail 4

/-- A bundle whose granules `ues` the capture region gives as uncorrectable (R507); its header does not come from there. -/
def markBundle (ues : List Nat) (bs : List Byte) : List PByte :=
  bs.mapIdx (fun i b => ⟨b, decide (4096 ≤ i) && ues.contains (i / 8)⟩)

/-- A granule of the capture region reads as a UE during an export (R507, R419, R424). Where in the region it lies is not kept: the address
is a free value. DEDUCED, assumption 51. -/
def Dev.exportUe (d : Dev) : Dev :=
  let a := d.draw.1.toNat % 2 ^ 37 / 64 * 64
  ((d.draw.2.count (rHbmErr (a / 64 % 4)) 16 16).countUe 0 a).agentPoison a

/-- EXPORT_IMPORT_DONE (R507, R516): the extent list, for an import the bundle as host memory holds it, and for an export the uncorrectable
granules. -/
def execExportImportDone (extents : List (Nat × Nat)) (bundle : BundleIo) (s : State) : Host.Outcome State Fault Refusal :=
  onDev s (fun d =>
    let mask := d.rf rTrgExpCtl 32 32
    let total := (extents.map (fun e => e.2)).sum
    if !d.rb rTrgExpCtl 0 then d
    else if d.rb rTrgExpCtl 3 then d.importPart mask total bundle.bytes
    else match d.trg.frozen with
      | none => d.expFail 1
      | some f =>
        let bs := d.bundleBytes f mask
        if total < bs.length then d.expFail 2
        else
          let out := markBundle bundle.ues bs
          let bad := (List.range (bs.length / 8)).filter (fun i => decide (512 ≤ i) && bundle.ues.contains i)
          ((bad.foldl (fun d _ => d.exportUe) d).hostExtents (d.rf rTrgExpCtl 4 1) extents out).expDone)

/-- TRG_RPL_CTL.ENTER (R510 step 3, R517): refused when the cluster homes a track. -/
def Dev.rplEnter (d : Dev) : Dev :=
  let c := d.rf rTrgRplCtl 8 5
  let d := d.setRb rTrgRplCtl 0 false
  if d.rstate ≠ 0 ∨ d.homed c ≠ 0 then d
  else
    let d := d.resetCluster c
    (((d.setCluster c { d.cluster c with released := false }).setRstate 1).setTrgState 4).withReplay (fun _ => Replay.reset)

/-- A word of a checkpoint at an offset, and a register with its mark bit. -/
def ckWord (bs : List Byte) (o : Nat) : Word := word (ofLe ((bs.drop o).take 8))
def ckReg (bs : List Byte) (marks o i : Nat) : Reg := ⟨ckWord bs o, marks.testBit i⟩

/-- A thread read from a checkpoint (R498): its 3,072 bytes and its 280 bytes of pending interrupts. -/
def threadOfBytes (bs irq : List Byte) (mem : Nat → List Byte) : Thread :=
  let w := ckWord bs
  let marks := ofLe ((bs.drop 2480).take 40)
  let f := fun o n => ofLe ((bs.drop o).take n)
  let ts := w 16
  let wr := fun (k : Nat) => WorldRegs.mk (w (2376 + 8 * k)) (w (2392 + 8 * k)) (w (2408 + 8 * k))
  let lp := fun (k : Nat) => LoopLevel.mk (w (64 + 8 * k)) (w (88 + 8 * k)) (w (112 + 8 * k)) ((bs.drop (2520 + 16 * k)).take 16)
  let irqs := fun (world : Bool) => (List.range 224).filterMap (fun v =>
    if (ofLe ((irq.drop (if world then 28 else 0)).take 28)).testBit v then
      some (PendingIrq.mk world (v + 32) (ofLe ((irq.drop (if world then 168 else 56)).take 112) / 16 ^ v % 16)) else none)
  let sh := f 2472 8
  let t := { Thread.reset with
    run := if f 24 1 = 0 then .free else if f 24 1 = 4 then .locked else .running
    pc := w 0
    fl := ckReg bs marks 8 0
    ts := ts &&& 0xFFFF#64
    shadow := if sh / 2 ^ 16 % 4 = 0 then none else some ⟨word (sh % 2 ^ 16), sh / 2 ^ 16 % 4⟩
    cnt := w 32
    es := ckReg bs marks 40 1
    wsel := f 25 1
    wd := f 26 1
    lp0 := lp 0
    lp1 := lp 1
    lp2 := lp 2
    fps := w 2456
    fpepc := w 2464
    sepc := w 2424
    sefl := ⟨w 2432, false⟩
    sets := w 2440
    up := wr 0
    down := wr 1
    xceil := w 2448
    mc := if bit ts 16 then some ⟨(w 48).setWidth 32, w 56⟩ else none
    irqs := irqs false ++ irqs true }
  let t := (List.range 231).foldl (fun t i => t.physSet (i + 1) (ckReg bs marks (136 + 8 * i) (2 + i))) t
  let t := (List.range 16).foldl (fun t k => t.setFreg (BitVec.ofNat 4 k) (ckReg bs marks (1984 + 8 * k) (233 + k))) t
  let t := (List.range 8).foldl (fun t k =>
    let v : Int := ((digitsOf ((bs.drop (2112 + 32 * k)).take 32)).getD 0 : Nat)
    t.setAcc (BitVec.ofNat 3 k) ⟨if f (2368 + k) 1 = 0x0D then -v else v, marks.testBit (249 + k)⟩) t
  let b := (t.worldRegs t.world).tsbr.toNat
  if t.dl then { t with lazySave := some ⟨ofLe (mem (b + 48)) % 2 ^ 48, b⟩ } else t

/-- TRG_RPL_CTL.LOAD (R510 step 5): stores, undo records, checkpoint. -/
def Dev.rplLoad (d : Dev) : Dev :=
  let d := d.setRb rTrgRplCtl 1 false
  let x := d.trg.replay
  if d.rstate ≠ 1 ∨ !x.imported then d
  else
    let n := x.field
    let part := vals (d.readBytes (d.rf rTrgRplBase 12 36 * 4096) x.len)
    let at_ := fun o k => (part.drop o).take k
    let map := fun (o g : Nat) => (part.getD (o + g / 8) 0).getLsbD (g % 8)
    let marked := fun (o m len : Nat) => (List.range len).map (fun i => PByte.mk (part.getD (o + i) 0) (map m (i / 8)))
    let recs := parseRecs part.length (part.drop 0x614000)
    let e : Dev := { d with
      mem := { Mem.reset with bytes := d.mem.bytes.filter (fun p => decide (Config.keyBase ≤ p.1 ∧ p.1 < Config.ctlBase)) }
      clu := [], thr := [] }
    let e := (e.pokeMarked (imageAddr n 0) (marked 0x100000 0x600000 0x400000)).pokeMarked (imageAddr n 0x400000) (marked 0x500000 0x610000 0x100000)
    let e := e.undoRecs recs
    let sets := d.cacheSets n
    let tags := ((List.range sets).flatMap (fun s => (List.range 16).map (fun w => (s, w, ofLe (at_ (0x80000 + 128 * s + 8 * w) 8))))).filter
      (fun p => decide (p.2.2 % 2 = 1))
    let tags := sorted (fun a b => decide (a.2.2 / 16 % 16 ≤ b.2.2 / 16 % 16)) tags
    let lines := tags.map (fun p => CLine.mk (p.2.2 % 2 ^ 48 / 64) p.2.1 (decide (p.2.2 / 2 % 2 = 1))
      (if p.2.2 / 4 % 2 = 1 then some (clean (leBytes 64 0)) else none))
    let e := lines.foldl (fun e l => e.pokeMarked (64 * l.line) (e.readBytes (d.posAddr n l) 64)) e
    let clu := { Cluster.reset with released := true, lines := lines, ccc := 10 * ofLe (at_ 8 8) }
    let btb := (List.range (12 * 128)).foldl (fun m i =>
      let es := (List.range 4).filterMap (fun w =>
        let b := at_ (0x50000 + 16384 * (i / 128) + 32 * (4 * (i % 128) + w)) 32
        let h := ofLe (b.take 8)
        if h % 2 = 1 then some (h / 2 % 4, BtbEntry.mk (h % 2 ^ 48 / 512 * 512 + 4 * (i % 128)) (ofLe ((b.drop 8).take 8))) else none)
      SMap.set (fun _ => ([] : List BtbEntry)) m (128 * (12 * n + i / 128) + i % 128)
        ((sorted (fun a b => decide (a.1 ≤ b.1)) es).map (fun p => p.2))) ([] : SMap (List BtbEntry))
    let thr := (List.range 96).foldl (fun m l =>
      SMap.set (fun _ => Thread.reset) m (96 * n + l) (threadOfBytes (at_ (0x8000 + 3072 * l) 3072) (at_ (0x400 + 280 * l) 280)
        (fun a => vals (e.readBytes a 8)))) ([] : SMap Thread)
    (d.withReplay (fun y => { y with recs := recs, resp := [], thr := thr, clu := clu, btb := btb, mem := e.mem })).setRstate 2

/-- TRG_RPL_CTL.GO (R510 step 6, R517). -/
def Dev.rplGo (d : Dev) : Dev :=
  let d := d.setRb rTrgRplCtl 2 false
  if d.rstate = 2 then (d.withReplay (fun x => { x with goAt := x.clu.ccc / 10 % 2 ^ 48 })).setRstate 3 else d

/-- TRG_RPL_CTL.DUMP (R510 step 6, R517): the cluster's state as a checkpoint, in the 1 MiB below TRG_RPL_BASE. -/
def Dev.rplDump (d : Dev) : Dev :=
  let d := d.setRb rTrgRplCtl 3 false
  let x := d.trg.replay
  let base := d.rf rTrgRplBase 12 36 * 4096
  if (d.rstate = 2 ∨ d.rstate = 4 ∨ d.rstate = 5) ∧ 0x100000 ≤ base ∧ base ≤ Config.hbmEnd then
    let k : Ckpt := ⟨x.clu.ccc / 10, d.now, false, x.thr, x.clu, x.btb, d.free⟩
    let e := { d with mem := x.mem }
    { d.writeBytes (base - 0x100000) (clean (ckptBytes x.field k (d.cacheSets x.field) e.byteAt)) with free := d.free + 25 }
  else d

/-- TRG_RPL_CTL.EXIT (R510 step 7): the cluster is reset and rejoins its device. DEDUCED, assumption 58. -/
def Dev.rplExit (d : Dev) : Dev :=
  let c := d.rf rTrgRplCtl 8 5
  let on := decide (d.rstate ≠ 0)
  let d := d.setRb rTrgRplCtl 4 false
  if on then
    let d := (d.setRstate 0).withReplay (fun _ => Replay.reset)
    let d := d.setTrgState (if d.trg.frozen.isSome then 2 else 0)
    (d.setCluster c { d.cluster c with released := true }).resetCluster c
  else d

/-- The CCC of the replaying cluster stands at a stamp. -/
def Dev.rplAt (d : Dev) (stamp : Nat) : Dev := d.withReplay (fun x => { x with clu := { x.clu with ccc := 10 * stamp } })

/-- Whether a record answers a request of the cluster (R511), and whether the request it answers can be outstanding: a POST result needs
an outstanding POST of its thread, a grant a line that is held. -/
def CapRec.isResponse (r : CapRec) : Bool := r.kind == 2 || r.kind == 3 || r.kind == 5 || r.kind == 7 || r.kind == 8
def Dev.answers (d : Dev) (r : CapRec) : Bool :=
  let x := d.trg.replay
  if r.kind = 7 then !(SMap.get (fun _ => Thread.reset) x.thr (96 * x.field + r.loc)).posts.isEmpty
  else if r.kind = 3 then x.clu.lines.any (fun l => l.line == r.addr / 64)
  else true

/-- A consist that the Yard wrote to a slot (R89, R90, R495): the thread that it starts. -/
def Dev.rplConsist (d : Dev) (g : Nat) (r : CapRec) : Dev :=
  let bs := r.payload
  let f := fun o n => ofLe ((bs.drop o).take n)
  let cls := SMap.get (fun _ => (0, 0)) d.tt.classes (f 4 2)
  let n := f 2 1
  let ids := (List.range n).map (fun i => ConsistRec.mk (f (32 + 8 * i) 8) 0)
  let d := d.writeBytes r.addr (clean (padTo 192 bs))
  let t := dispatchThread (d.thread g) g (f 0 2) cls.2 cls.1 [] ids (f 8 4) (f 12 4)
  d.setThread g (t.setGreg 9 ⟨word n, false⟩)

/-- A response or event of a record takes effect in the replaying cluster (R495, R511). The cluster's posting engine is not run again. -/
def Dev.rplApply (d : Dev) (r : CapRec) : Dev :=
  let x := d.trg.replay
  let c := x.field
  let g := 96 * c + r.loc % 96
  let l := r.addr / 64
  match r.kind with
  | 0x01 => d.rplConsist g r
  | 0x02 =>
    let d := d.pokeMarked r.addr (lineOfPayload r.payload)
    if r.sub.testBit 2 then d
    else
      let d := match d.victim c l with | some v => d.dropLine c v | none => d
      let old := (((d.cluster c).lines.find? (fun y => y.line == l)).map CLine.old).join
      (d.installLine c l (r.sub.testBit 0) old).drainAsked c l
  | 0x03 =>
    let y := d.cluster c
    (d.setCluster c { y with lines := y.lines.map (fun z => if z.line = l then { z with writable := true } else z) }).drainAsked c l
  | 0x04 =>
    if r.sub = 0 then d.dropLine c l
    else
      let y := d.cluster c
      d.setCluster c { y with lines := y.lines.map (fun z => if z.line = l then { z with writable := false, old := none } else z) }
  | 0x05 => d.withReplay (fun y => { y with resp := y.resp ++ [r] })
  | 0x07 =>
    let v := ckWord r.payload 0
    let k := d.ctx g
    match k.t.posts with
    | [] => d
    | w :: rest =>
      let k := (k.withT (k.t.physSet w.dest ⟨v, false⟩))
      let t := { k.t with fl := ⟨ckWord r.payload 8, false⟩, posts := rest, releasing := k.t.releasing || (w.rel && decide (fld v 0 16 = 0)) }
      ((k.withT t).commit).tryRelease g
  | 0x09 => d.setIrq g ⟨decide (ofLe r.payload % 2 = 1), r.sub, ofLe r.payload / 16 % 16⟩
  | 0x0A => if r.sub = 3 ∨ r.sub = 4 then d.restartThread g else if r.sub = 5 then d.freshThreads true c else d
  | 0x0B =>
    let mask := ofLe ((r.payload.drop 32).take 8)
    let at_ := (List.range 64).filter mask.testBit
    ((List.range at_.length).foldl (fun d i => d.writeBytes (r.addr + at_.getD i 0) [⟨r.payload.getD i 0, false⟩]) d).btbDrop c l
  | 0x0C => d.setByte (Config.keyBase + r.addr) (BitVec.ofNat 8 r.sub)
  | 0x0D => d.setMark (r.addr / 8) true
  | _ => d

/-- REPLAY_RECORD (R511): the next record takes effect at its stamp, unless the run stops before it: at STOPAT, at END, or because it answers no
outstanding request. `asked` says whether the cluster has an outstanding request of the record's kind, thread and address.
DESIGN CHOICE, assumption 57. -/
def execReplayRecord (asked : Bool) (s : State) : Host.Outcome State Fault Refusal :=
  onDev s (fun d =>
    let x := d.trg.replay
    let stop := d.rf rTrgRplStopat 0 48
    let next := (x.recs.head?.map (fun r => r.stamp)).getD x.endAt
    if d.rstate ≠ 3 then d
    else if d.rb rTrgRplStopat 63 && decide (x.goAt < stop ∧ stop ≤ next) then (d.rplAt stop).setRstate 2
    else match x.recs with
      | [] => (d.rplAt x.endAt).setRstate 4
      | r :: rest =>
        if r.isResponse && !(asked && d.answers r) then ((d.rplAt r.stamp).setRstate 5).setRb rTrgStatus 6 true
        else ((d.rplAt r.stamp).detached (fun e => e.rplApply r)).withReplay (fun y => { y with recs := rest }))

end Sys2Proof.Machine
end

