-- ==== Sys2Proof/Machine/Ports.lean ====
section
/-! DEFINITION. The Ethernet ports' links (R550, R520), IEEE 1588 receive rings and transmit commands (R555, R556), and the 1PPS pins (R552). -/
namespace Sys2Proof.Machine

open Sys2Proof

/-- A slot of the receive ring (R555). -/
def ptpSlot (now : Nat) (f : PtpIn) : List Byte :=
  leBytes 8 now ++ leBytes 2 (f.flen - 4) ++ leBytes 1 (f.event.toNat + 2 * (decide (240 < f.flen - 4)).toNat) ++ leBytes 5 0
  ++ padTo 240 (f.bytes.take (f.flen - 4))

/-- PTP_FRAME_RECEIVED on port `p` (R555). -/
def execPtpFrameReceived (p : Nat) (f : PtpIn) (s : State) : Host.Outcome State Fault Refusal :=
  onUnit (decide (p < 8)) s (fun d =>
    match d.classify p (.ptp f) with
    | .ptp =>
      let tail := d.rf (rEthPtprxidx p) 32 32
      let a := d.rf (rEthPtpctl p) 14 34 * 2 ^ 14 + 256 * (tail % 64)
      (d.writeBytes a (clean (ptpSlot d.now f))).setRf (rEthPtprxidx p) 32 32 (tail + 1)
    | .drop lo n => d.countDrop p lo n
    | _ => d)

/-- ETHp_PTPCTL takes a value (R555): BASE is frozen while EN is 1; EN needs the whole ring in HBM data, and its rise clears HEAD and TAIL. -/
def Dev.ptpCtl (d : Dev) (p : Nat) (new : Word) : Dev :=
  let o := rEthPtpctl p
  let on := d.rb o 0
  let base := if on then d.rf o 14 34 else fld new 14 34
  let en := bit new 0 && (on || decide (base * 2 ^ 14 + 0x4000 ≤ Config.hbmEnd))
  let d := d.setReg o (setBit (setFld new 14 34 base) 0 en)
  if en && !on then d.setReg (rEthPtprxidx p) 0 else d

/-- HEAD takes a value (R555), or not. -/
def Dev.ptpHead (d : Dev) (p head : Nat) : Dev :=
  let tail := d.rf (rEthPtprxidx p) 32 32
  if (tail + 2 ^ 32 - head % 2 ^ 32) % 2 ^ 32 ≤ 64 then d.setRf (rEthPtprxidx p) 0 32 head else d

/-- The ones' complement sum of bytes as 16-bit words, most significant first, folded. -/
def onesSum (bs : List Byte) : Nat :=
  let rec go : List Byte → Nat
    | a :: b :: r => a.toNat * 256 + b.toNat + go r
    | [a] => a.toNat * 256
    | [] => 0
  let s := go bs
  if s = 0 then 0 else (s - 1) % 65535 + 1

/-- Where the IP header of a frame begins, after the MAC addresses and a VLAN tag, and its EtherType. -/
def ipStart (f : List Byte) : Nat × Nat :=
  let t := ofBe ((f.drop 12).take 2)
  if t = 0x8100 then (18, ofBe ((f.drop 16).take 2)) else (14, t)

/-- The UDP checksum after a one-step timestamp (R556): recomputed over IPv6, zero over IPv4; a frame that carries no UDP keeps its bytes. -/
def ptpChecksum (f : List Byte) : List Byte :=
  let (i, t) := ipStart f
  if t = 0x0800 ∧ (f.drop (i + 9)).head? = some 17#8 then
    overlay f (i + ((f.getD i 0).toNat % 16) * 4 + 6) [0, 0]
  else if t = 0x86DD ∧ (f.drop (i + 6)).head? = some 17#8 then
    let u := i + 40
    let len := ofBe ((f.drop (u + 4)).take 2)
    let g := overlay f (u + 6) [0, 0]
    let sum := onesSum ((g.drop (i + 8)).take 32 ++ beBytes 4 len ++ beBytes 4 17 ++ (g.drop u).take len)
    overlay g (u + 6) (beBytes 2 (if sum = 65535 then 65535 else 65535 - sum))
  else f

/-- The transmit command of port `p` (R556): refused at once, sent while the port's link is up, and waiting otherwise. DEDUCED, assumption 85. -/
def Dev.ptpSend (d : Dev) (p : Nat) : Dev :=
  let o := rEthPtptxcmd p
  let len := d.rf o 48 8
  let ts := d.rf o 56 8
  let one := d.rb o 2
  let a := d.rf (rEthPtptxaddr p) 3 45 * 8
  if !d.rb o 0 then d
  else if len < 60 ∨ 240 < len ∨ Config.hbmEnd < a + len ∨ (one = true ∧ len < ts + 10) then (d.setRb o 0 false).setRb o 3 true
  else if !d.hears p then d
  else
    let raw := d.readBytes a len
    let d := d.agentRead a len
    let bs := vals raw
    let bs := if one then ptpChecksum (overlay bs ts (beBytes 6 (d.now / 10 ^ 9) ++ beBytes 4 (d.now % 10 ^ 9))) else bs
    let d := if one then d else d.setReg (rEthPtptxts p) (word d.now)
    let d := (d.setRb o 0 false).setRb o 1 true
    if anyPoison raw then
      let q := ((List.range len).find? (fun i => (raw.getD i ⟨0, false⟩).poison)).getD 0
      ((d.agentPoison ((a + q) / 64 * 64)).count (rEthPoison p) 0 32).say (.ptp p (withMark true bs))
    else d.say (.ptp p (clean bs))

/-- ETH_LINK_UP (R550): a port of MODE 0 takes part in no link, and ports train after phase 6 (R569). -/
def execEthLinkUp (p : Nat) (s : State) : Host.Outcome State Fault Refusal :=
  onUnit (decide (p < 8)) s (fun d =>
    let c := d.portCfg p
    if d.inService && decide (c.mode ≠ 0) then
      let lanes := if c.mode ≤ 3 then 15 else if c.mode = 4 then 3 else 1
      let an := decide (c.an ≠ 0 ∧ c.mode ≤ 2)
      ((((d.setRf (rEthStatus p) 12 4 lanes).setRb (rEthStatus p) 9 true).setRb (rEthStatus p) 8 an).setRb (rEthStatus p) 7 true).ptpSend p
    else d)

/-- The link of a port is down. -/
def Dev.ethDown (d : Dev) (p : Nat) : Dev := d.setReg (rEthStatus p) (d.reg (rEthStatus p) &&& 7#64)

/-- ETH_LINK_DOWN (R520, R550): of one port, or of every port. -/
def execEthLinkDown (p : Nat) (all : Bool) (s : State) : Host.Outcome State Fault Refusal :=
  onUnit (decide (p < 8)) s (fun d => if all then (List.range 8).foldl Dev.ethDown d else d.ethDown p)

/-- PPS_IN_EDGE (R552, R553). -/
def execPpsInEdge (s : State) : Host.Outcome State Fault Refusal :=
  onDev s (fun d => if d.box.power = .on then d.setReg rSbxPpsin (word d.now) else d)

/-- PPS_OUT_EDGE (R552, R569): the pin rises at a whole second; it stays low while the device is held. -/
def execPpsOutEdge (s : State) : Host.Outcome State Fault Refusal :=
  onDev s (fun d => if d.inService then d.say (.pin "1PPS_OUT" 1) else d)

end Sys2Proof.Machine
end

