-- ==== Sys2Proof/Machine/Registers.lean ====
section
/-! DEFINITION. Control space (R430-R450): how an offset is decoded, what a read returns, and what a write does by access class and by the
register's own action. -/
namespace Sys2Proof.Machine

open Sys2Proof

/-- The offset bits that a block decodes (R431). -/
def slotMask (slot : Nat) : Nat :=
  if slot = 0 then 0x1FF else if slot = 1 ∨ slot = 2 ∨ slot = 5 ∨ slot = 7 then 0x3F else if slot = 3 then 0x3FF
  else if slot = 4 then 0xF else if slot = 6 then 0x83F else if slot = 8 then 0x7F else if slot = 9 ∨ slot = 11 then 0xFF
  else if slot = 10 then 0x8FF else if slot = 12 then 0x3FF else if slot = 13 then 0xFFF else if slot = 14 ∨ slot = 15 then 0x7FF
  else if slot < 24 then 0x3FF else if slot < 28 then 0x1FF else if slot < 32 then 0 else 0x7FF

/-- A decoded offset (R430, R432): block slot, reduced offset in the block, and whether it lies in the snapshot mirror. -/
structure Place8 where
  slot : Nat
  x : Nat
  mirror : Bool
  deriving DecidableEq, Repr

def placeOf (o : Nat) : Place8 := ⟨o / 4096 % 64, (o % 4096) &&& slotMask (o / 4096 % 64), decide (o / 2 ^ 24 % 2 = 1)⟩
/-- The live offset of the register reached, and whether a 4-byte access reaches its high half. -/
def Place8.reg (p : Place8) : Nat := 0x1000 * p.slot + p.x / 8 * 8
def Place8.high (p : Place8) : Bool := decide (p.x / 4 % 2 = 1)

/-- The registers that only the Interlock writes (R439): LL_BYPASS and PWR_RSTCMD; the register whose complement address an offset is. -/
def isRwi (r : Nat) : Bool := decide (r = rLlBypass ∨ r = rPwrRstcmd)
def complementOf (r : Nat) : Option Nat :=
  if r = rLlBypass + 0x800 then some rLlBypass else if r = rPwrRstcmd + 0x800 then some rPwrRstcmd else none
/-- An offset of a complement window (R432). -/
def Place8.window (p : Place8) : Bool := decide ((p.slot = 6 ∨ p.slot = 10) ∧ 0x800 ≤ p.x)

/-- The bits of a field, of the fields of a class, and of the counters of a register. -/
def fieldMask (f : Fld) : Word := word ((2 ^ (f.hi + 1 - f.lo) - 1) * 2 ^ f.lo)
def classMask (o : Nat) (c : Cls) : Word := ((regFields o).filter (fun f => decide (f.cls = c))).foldl (fun m f => m ||| fieldMask f) 0
def hasCounter (o : Nat) : Bool := (regFields o).any (fun f => decide (f.cls = .ctr))

/-- The bits of `new` where `m` is 1, of `old` elsewhere. -/
def merge (m old new : Word) : Word := (old &&& ~~~m) ||| (new &&& m)

/-- The RWE buffer of a register (R438), and the slots that have one pending. -/
def Dev.rweOf (d : Dev) (o : Nat) : Option Word := SMap.get (fun _ => none) d.box.rwe o
def Dev.setRwe (d : Dev) (o : Nat) (v : Option Word) : Dev := d.withBox (fun b => { b with rwe := SMap.set (fun _ => none) b.rwe o v })
def Dev.rwePending (d : Dev) (slot : Nat) : Bool := d.box.rwe.any (fun p => decide (p.1 / 4096 = slot))
def Dev.pendingWord (d : Dev) : Word := word (((List.range 64).map (fun s => (d.rwePending s).toNat * 2 ^ s)).sum)

/-- The security version floor (R469, R478), and the device identifier as bytes. -/
def Dev.svFloor (d : Dev) : Nat := Nat.max (Config.fuseFloor % 65) d.box.floor
def devIdBytes : List Byte := leBytes 16 Config.devId
/-- OWNERKH and KAMROVKH, 32 bytes; whether the former is programmed (R469). -/
def ownerKh : List Byte := padTo 32 Config.ownerKh
def kamrovKh : List Byte := padTo 32 Config.kamrovKh
def ownerProgrammed : Bool := ownerKh.any (fun b => b ≠ 0#8)

/-- A timer (R525). -/
def Dev.timer (d : Dev) (i : Nat) : Timer := SMap.get (fun _ => Timer.reset) d.box.timers i
def Dev.setTimer (d : Dev) (i : Nat) (t : Timer) : Dev :=
  d.withBox (fun b => { b with timers := SMap.set (fun _ => Timer.reset) b.timers i t })

/-- MIC_RPTDATA (R413). -/
def rptWord (e : RptEntry) : Word :=
  word (e.valid.toNat * 2 ^ 63 + e.reported.toNat * 2 ^ 62 + e.die % 16 * 2 ^ 58 + e.count % 256 * 2 ^ 45 + e.addr / 8 % 2 ^ 45)

/-- LL_STATUS (R398), RINGID and RSIZE apart. DEDUCED, assumption 87. -/
def Dev.llStatus (d : Dev) : Word :=
  let r := d.ring
  let st := match r.state with | .out => 0 | .joining => 1 | .resync => 2 | .member => 3 | .leaving => 4 | .fenced => 5
  word (r.live % 2 ^ 16 * 2 ^ 48 + r.adopted % 2 ^ 16 * 2 ^ 32 + (if r.live = 0 then 0 else d.leader) * 2 ^ 28 + d.tt.ringId % 16 * 2 ^ 24
    + d.tt.n % 32 * 2 ^ 19 + r.fmtcur % 16 * 2 ^ 15 + st * 2 ^ 12 + (r.seed.isSome || !r.seeding.isEmpty).toNat * 2 ^ 11 + (d.rwePending 6).toNat * 2 ^ 10
    + r.east.fibres % 16 * 16 + r.west.fibres % 16)

/-- The levels at the GPIO pins (R565, R566): a driven pin carries OUT, GPIO15 is FLASH_OWN_N while the flash is held (R484), the carrier
decides the rest. -/
def Dev.gpioIn (d : Dev) (carrier : Word) : Nat :=
  let oe := d.rf rCfgGpio 16 16
  let drive := d.rf rCfgGpio 0 16
  let pin := fun n =>
    if n = 15 ∧ d.box.power = .on ∧ d.rb rSbxStart 35 = false then false
    else if oe.testBit n then drive.testBit n else bit carrier n
  ((List.range 16).map (fun n => (pin n).toNat * 2 ^ n)).sum

/-- What the live register at `o` reads (R436), those that are drawn afresh apart. -/
def Dev.liveValue (d : Dev) (o : Nat) : Word :=
  let v := d.reg o
  let sel := d.rf rJnlQsel 0 13
  let kq := d.rf rQmKqsel 0 13
  let tm := d.timer (d.rf rClkTmrsel 0 7)
  if o = rCfgPending then d.pendingWord
  else if o = rCfgIrtData then word (fld (d.route (d.rf rCfgIrtSel 0 12)) 0 32)
  else if o = rYrdStatus then
    word (sat 63 (d.yard.tracks.filter (fun p => decide (p.2.state = .moving))).length * 2 ^ 55 + d.yard.hold.length % 2 ^ 15 * 2 ^ 40
      + d.yard.pinq.length % 128 * 2 ^ 33 + (d.rwePending 2).toNat * 2 ^ 32 + d.yard.gen % 2 ^ 32)
  else if o = rYrdLog then setFld v 0 32 d.yard.logTail
  else if o = rQmKqidx then
    (if isKernelQueue kq && decide ((d.queue kq).kind = 6) then word ((d.queue kq).tail % 2 ^ 32 * 2 ^ 32 + (d.queue kq).head % 2 ^ 32) else 0)
  else if o = rJnlEpoch then word d.jnl.epoch
  else if o = rJnlCommit then word d.jnl.committed
  else if o = rJnlSeq then word (d.jnl.next % 2 ^ 62)
  else if o = rJnlFill then
    word (sat 255 d.jnl.openSeals * 2 ^ 33 + (d.rwePending 5).toNat * 2 ^ 32 + d.jnl.units.length % 2 ^ 19)
  else if o = rJnlQdata then (if isJournalQueue sel then word (d.sel sel % 2 ^ 32) else 0)
  else if o = rLlStatus then d.llStatus
  else if o = rLlSpool then word (d.tt.poolLines - d.ring.poolUsed.length)
  else if o = rMicRptdata then rptWord (d.rptAt (d.rf rMicRptsel 0 8))
  else if o = rMicErase then setBit v 16 (d.rwePending 7)
  else if o = rPwrStatus then setBit (setBit v 4 (d.rwePending 10)) 3 d.box.rst.isSome
  else if o = rClkTod then word d.now
  else if o = rClkTmrdl then word tm.deadline
  else if o = rClkTmrctl then word (tm.en.toNat * 2 ^ 63 + tm.period % 2 ^ 48)
  else if o = rSbxDevidl then word (ofLe (devIdBytes.take 8))
  else if o = rSbxDevidh then word (ofLe (devIdBytes.drop 8))
  else if o = rSbxFuse then word (d.svFloor * 2 + ownerProgrammed.toNat)
  else if o = rTrgStatus then setFld v 40 8 d.effWin
  else if o = rTrgRplCtl then setFld v 16 48 (if d.rstate = 0 then 0 else d.trg.replay.clu.ccc / 10)
  else v

/-- A request of the random bit generator (R492): after 2^20 requests it is seeded afresh. -/
def Dev.rngRequest (d : Dev) : Dev := d.withBox (fun b => { b with rngReqs := (b.rngReqs + 1) % 2 ^ 20 })

/-- What a read of the live register at `o` returns: the random bits of SBX_RNG (R492), the levels at pins and HBM temperatures are free
values. DESIGN CHOICE, assumption 10. -/
def Dev.readLive (d : Dev) (o : Nat) : Word × Dev :=
  if o = rSbxRng then
    (if d.box.rngStopped then (0, d) else (d.draw.1, d.draw.2.rngRequest))
  else if o = rCfgGpio then (setFld (d.liveValue o) 48 16 (d.gpioIn d.draw.1), d.draw.2)
  else if o = rHbmStatus 0 ∨ o = rHbmStatus 1 ∨ o = rHbmStatus 2 ∨ o = rHbmStatus 3 then
    (setFld (d.liveValue o) 32 8 (fld d.draw.1 0 8), d.draw.2)
  else (d.liveValue o, d)

/-- CLK_TOD 10 ns on (R450, R526): 15 fabric cycles. -/
def Dev.freq (d : Dev) : Int :=
  let v := d.rf rClkTodadj 0 32
  if v < 2 ^ 31 then v else (v : Int) - 2 ^ 32
def Dev.fabricStep (d : Dev) : Nat := (2 * (10 ^ 9 + d.freq)).toNat
def Dev.later (d : Dev) : Nat := (d.tod + 15 * d.fabricStep) / 3000000000 % 2 ^ 64

/-- A read of control space at offset `o` (R430-R432, R437, R448, R450): 8 bytes when `wide`, otherwise 4. DEDUCED, assumptions 93, 94. -/
def Dev.ctrlRead (d : Dev) (o : Nat) (wide : Bool) : Word × Dev :=
  let p := placeOf o
  let r : Word × Dev :=
    if p.mirror then ((if hasCounter p.reg && !p.window then SMap.get (fun _ => (0 : Word)) d.box.copies p.reg else 0), d)
    else if p.window then (0, d)
    else d.readLive p.reg
  if wide then
    (if p.reg = rClkTod ∧ p.mirror = false then (word (fld (word d.now) 0 32 + fld (word d.later) 32 32 * 2 ^ 32), r.2) else r)
  else (word (fld r.1 (if p.high then 32 else 0) 32), r.2)

/-- A bit-alias read (R444) of the alias word at offset `o` of the region. -/
def Dev.aliasRead (d : Dev) (o : Nat) : Word × Dev :=
  let p := placeOf (o / 256 * 8)
  let r : Word × Dev := if p.window then (0, d) else d.readLive p.reg
  (word (bit r.1 (o % 256 / 4)).toNat, r.2)

/-- Agents as CFG_LOCKVIOL codes them (R452). -/
def agentCode : Agent → Nat
  | .thread _ => 0
  | .pcia => 1
  | .pcib => 2
  | .box => 3
  | .sideband => 4

/-- A refused write is recorded (R452). -/
def Dev.lockViol (d : Dev) (a : Agent) (o : Nat) : Dev :=
  let d := d.count rCfgLockviol 48 16
  let d := if d.rb rCfgLockviol 0 then d else (d.setRf rCfgLockviol 29 3 (agentCode a)).setRf rCfgLockviol 6 23 (o / 8)
  d.setRb rCfgLockviol 0 true

/-- An Interlock failure on the register at `o` (R439, R451): the held value is discarded. -/
def Dev.ilkFail (d : Dev) (o cause : Nat) : Dev :=
  let d := d.withBox (fun b => { b with ilk := b.ilk.filter (fun h => h.off ≠ o) })
  let d := d.count rCfgIlk 48 16
  let d := if d.rb rCfgIlk 0 then d else (d.setRf rCfgIlk 6 23 (o / 8)).setRf rCfgIlk 1 3 cause
  d.setRb rCfgIlk 0 true

/-- Whether an agent may write a slot (R433). -/
def Dev.mayWrite (d : Dev) (a : Agent) (slot : Nat) : Bool :=
  match a with
  | .thread g => d.rb (if (d.thread g).world then rCfgBwdn else rCfgBwup) slot
  | .pcia | .pcib => d.rb rCfgHostw slot
  | .box => true
  | .sideband => false

/-- The bits of a register that ignore writes now. -/
def Dev.frozenBits (d : Dev) (o : Nat) : Word :=
  if o = rCfgBwup ∨ o = rCfgBwdn then 0xF0001000#64
  else if o = rCfgHostw then 0xF0000000#64
  else if o = rYrdSnap then (if d.rb rYrdSnap 0 then 0x0000FFFFFFFFF300#64 else 0)
  else if o = rPciMbxAddr 0 ∨ o = rPciMbxAddr 1 then (if d.rb (o + 8) 0 then ~~~0#64 else 0)
  else if o = rPciMbxCmd 0 ∨ o = rPciMbxCmd 1 then (if d.rb o 0 then 0xFFFFFFFF07FFFF00#64 else 0)
  else if o = rTrgExpCtl then (if d.rb o 0 then ~~~1#64 else 0)
  else if o = rTrgRplCtl then (if d.rstate = 0 then 0 else 0x1F00#64)
  else if 16 ≤ o / 4096 ∧ o / 4096 < 24 then
    (if d.rb (rEthPtptxcmd (o / 4096 - 16)) 0 then
      (if o % 4096 = 0x30 then ~~~0#64 else if o % 4096 = 0x38 then 0xFFFF000000000004#64 else 0) else 0)
  else 0

/-- Values that are clamped as they are written (R436, R514, R526). -/
def clampWritten (o : Nat) (v : Word) : Word :=
  if o = rClkTodadj then
    let f : Int := if fld v 0 32 < 2 ^ 31 then fld v 0 32 else (fld v 0 32 : Int) - 2 ^ 32
    setFld v 0 32 ((clampI (-200000) 200000 f % 2 ^ 32).toNat)
  else if o = rTrgWin then setFld v 0 7 (clamp 5 80 (fld v 0 7))
  else v

/-- A HEAL of the line at `a` (R415): the finding, worst first, and the device with the line rewritten. -/
def Dev.healAt (d : Dev) (a : Nat) : Nat × Dev :=
  let l := a / 64
  let poison := fun (d : Dev) => (List.range 8).foldl (fun d i => d.setMark (8 * l + i) true) d
  if a < Config.hbmEnd then
    let f := if d.cachedAny l then (if d.lineMarked l then Finding.poisoned none else .clean) else hbmDecode d l (d.hbmUps l) (d.lineMarked l)
    let d := if d.cachedAny l then d else d.hbmRead l false
    let d := if f = .uncorrectable then poison d else d
    let d := (d.healLine l true).count (rHbmWrlines (l % 4)) 0 64
    (match f with | .clean => 0 | .corrected _ => 1 | .poisoned _ => 2 | .uncorrectable => 3, d)
  else
    let ws := (List.range 8).map (fun i => 64 * l + 8 * i)
    let fs := ws.map (fun w => (w, sramDecode (d.sramUps w) (d.markOf (w / 8))))
    let ue := fs.any (fun p => decide (p.2 = .uncorrectable))
    let n := if ue then 3 else if fs.any (fun p => match p.2 with | .poisoned _ => true | _ => false) then 2
      else if fs.any (fun p => match p.2 with | .corrected _ => true | _ => false) then 1 else 0
    let d := fs.foldl (fun d p => match p.2 with
      | .corrected die => d.recordCe p.1 die
      | .uncorrectable => d.countUe 1 p.1
      | _ => d) d
    let d := if ue then poison d else d
    (n, ws.foldl (fun d w => d.healWord w true) d)

/-- MIC_HEAL.GO is written 1 (R415, R427). DEDUCED, assumption 81. -/
def Dev.healGo (d : Dev) : Dev :=
  let a := d.rf rMicHeal 6 42 * 64
  let d := d.setRb rMicHeal 0 false
  match d.region a with
  | .control | .bitAlias | .none => d.setRb rMicHeal 2 true
  | _ => ((d.healAt a).2.setRf rMicHeal 4 2 (d.healAt a).1).setRb rMicHeal 1 true

/-- A YRD_PINCMD value (R117). -/
def Dev.pinWrite (d : Dev) (w : Word) : Dev :=
  let op := fld w 24 2
  if op = 0 ∨ op = 3 then d
  else if 64 ≤ d.yard.pinq.length then d.setRb rYrdErr 0 true
  else d.withYard (fun y => { y with pinq := y.pinq ++ [⟨decide (op = 1), fld w 16 5, fld w 0 16⟩] })

/-- The fields of a route entry (R289); its reserved bits read as 0 (R8). -/
def routeFields : Word := 0xC1FFFFFF

/-- A CFG_IRT_DATA value (R292): events that were made before it go by the old route. -/
def Dev.routeWrite (d : Dev) (v : Word) : Dev :=
  let n := d.rf rCfgIrtSel 0 12
  if (bit v 31 && decide (fld v 16 8 < 32)) || decide (Config.threads ≤ fld v 0 12) then d.setRb rCfgIrtSel 63 true
  else
    let d := if d.edges.contains n then d.routeEvent n else d
    d.withBox (fun b => { b with routes := SMap.set (fun _ => (0 : Word)) b.routes n (v &&& routeFields) })

/-- CLK_TODSTEP takes a step (R524). DEDUCED, assumption 89. -/
def Dev.todStep (d : Dev) (v : Word) : Dev :=
  if d.ring.state = .out ∨ d.ring.state = .joining ∨ d.ring.state = .resync then
    { d with tod := (((d.tod : Int) + v.toInt * 3000000000) % (2 ^ 64 * 3000000000)).toNat }
  else d.setRb rClkTodadj 63 true

/-- A mailbox command of controller `n` begins (R458, R488). -/
def Dev.setMbx (d : Dev) (n : Nat) (j : Option MbxJob) : Dev := d.withBox (fun b => if n = 0 then { b with mbxA := j } else { b with mbxB := j })
def Dev.mbx (d : Dev) (n : Nat) : Option MbxJob := if n = 0 then d.box.mbxA else d.box.mbxB
/-- The turn of a QUOTE that begins while controller `n` has the command that it has (R493). -/
def Dev.nextQuote (d : Dev) (n : Nat) : Nat := match d.mbx n with | some j => if j.code = 3 then j.turn + 1 else 0 | none => 0
def Dev.mbxEnd (d : Dev) (n cause : Nat) : Dev :=
  ((((d.setMbx n none).setRb (rPciMbxCmd n) 0 false).setRb (rPciMbxCmd n) 2 true).setRf (rPciMbxCmd n) 3 3 cause)
/-- Whether the link of controller `n` is up. -/
def Dev.pcieUp (d : Dev) (n : Nat) : Bool := if n = 0 then d.box.linkA else d.box.linkB
/-- GO of a mailbox command (R458): a code that is none is refused, and a command whose link is down does not start. DEDUCED, assumption 98. -/
def Dev.mbxGo (d : Dev) (n : Nat) : Dev :=
  let code := d.rf (rPciMbxCmd n) 8 8
  if code < 1 ∨ 3 < code then d.mbxEnd n 1
  else if !d.pcieUp n then d.mbxEnd n 3
  else if (d.mbx n).isSome then d
  else d.setMbx n (some ⟨code, none, if code = 3 then d.nextQuote (1 - n) else 0⟩)

/-- The commands that a write of TRG_RPL_CTL gives (R517), in bit order. -/
def Dev.rplCommands (d : Dev) (w : Word) : Dev :=
  let d := if bit w 0 then d.rplEnter else d
  let d := if bit w 1 then d.rplLoad else d
  let d := if bit w 2 then d.rplGo else d
  let d := if bit w 3 then d.rplDump else d
  if bit w 4 then d.rplExit else d

/-- What a register does beside taking its value: `w` holds the 1 bits that were written; `fresh` says that GO was not set already. -/
def Dev.regAction (d : Dev) (o : Nat) (w : Word) (fresh : Bool) : Dev :=
  let go := bit w 0 && fresh
  if o = rCfgSwi then (List.range 32).foldl (fun d n => if bit w n then d.edge (224 + n) else d) d
  else if o = rYrdPincmd then d.pinWrite w
  else if o = rQmKdb then d.kernelDoorbell w
  else if o = rQmKqsel then (if bit w 62 then d.kernelReset else d)
  else if o = rLlLupd then (if go then d.lineUpdate else d)
  else if o = rMicHeal then (if go then d.healGo else d)
  else if o = rClkTodstep then d.todStep w
  else if o = rTrgCtl then
    let d := if bit w 0 then d.freezeWrite else d
    if bit w 1 then d.rearmWrite else d
  else if o = rTrgExpCtl then (if go then d.expGo else d)
  else if o = rTrgRplCtl then d.rplCommands w
  else if o = rPciMbxCmd 0 then (if go then d.mbxGo 0 else d)
  else if o = rPciMbxCmd 1 then (if go then d.mbxGo 1 else d)
  else if 16 ≤ o / 4096 ∧ o / 4096 < 24 ∧ o % 4096 = 0x38 then (if go then d.ptpSend (o / 4096 - 16) else d)
  else d

/-- The value that a write leaves in the fields that take effect at once (R436, R445): `m` the bits addressed, `v` the value, `locked` the
state of the slot's lock bit. -/
def writeFields (o : Nat) (old m v : Word) (locked : Bool) : Word :=
  let rw := classMask o .rw ||| classMask o .ctr ||| classMask o .rwt ||| (if locked then 0 else classMask o .rwl)
  let w := merge (rw &&& m) old v
  (w &&& ~~~(classMask o .w1c &&& m &&& v)) ||| (classMask o .w1s &&& m &&& v)

/-- The RWE fields of a write are buffered (R438); a YRD_FORBID value that would leave no eligible cluster is discarded (R111). -/
def Dev.bufferRwe (d : Dev) (o : Nat) (m v : Word) : Dev :=
  let e := classMask o .rwe
  if e &&& m = 0 then d
  else
    let b := merge m ((d.rweOf o).getD (d.reg o)) v &&& e
    if o = rYrdForbid && (List.range Config.clusters).all (fun c => bit b c || d.rb rPwrNapen c) then d.setRb rYrdErr 1 true
    else d.setRwe o (some b)

/-- The RWS fields of a write go to the always-on domain at its next slow tick (R443). -/
def Dev.bufferRws (d : Dev) (o : Nat) (m v : Word) : Dev :=
  let e := classMask o .rws &&& m
  if e = 0 then d
  else
    let base := (SMap.get (fun _ => none) d.box.rws o).getD d.box.caution
    d.withBox (fun b => { b with rws := SMap.set (fun _ => none) b.rws o (some (merge e base v)) })

/-- A write that reaches the live register at `o` (R436-R443): `m` the bits addressed, `v` the value, by agent `a`. -/
def Dev.regWrite (d : Dev) (a : Agent) (o : Nat) (m v : Word) : Dev :=
  let m := m &&& ~~~d.frozenBits o
  let tm := d.rf rClkTmrsel 0 7
  if o = rCfgIrtData then (if m &&& 0xFFFFFFFF#64 = 0 then d else d.routeWrite (merge (m &&& 0xFFFFFFFF#64) (d.liveValue o) v))
  else if o = rJnlQdata then (if m &&& 0xFFFFFFFF#64 = 0 then d else d.writeSel (fld (merge m (d.liveValue o) v) 0 32))
  else if o = rClkTmrdl then d.setTimer tm { d.timer tm with deadline := (merge m (d.liveValue o) v).toNat }
  else if o = rClkTmrctl then
    let w := merge m (d.liveValue o) v
    d.setTimer tm { d.timer tm with en := bit w 63, period := fld w 0 48 }
  else if 16 ≤ o / 4096 ∧ o / 4096 < 24 ∧ o % 4096 = 0x20 then
    d.ptpCtl (o / 4096 - 16) (writeFields o (d.reg o) m v false)
  else if 16 ≤ o / 4096 ∧ o / 4096 < 24 ∧ o % 4096 = 0x28 then
    (if m &&& 0xFFFFFFFF#64 = 0 then d else d.ptpHead (o / 4096 - 16) (fld (writeFields o (d.reg o) m v false) 0 32))
  else
    let locked := d.rb rCfgLock (o / 4096)
    let d1 := if locked && decide (classMask o .rwl &&& m ≠ 0) then d.lockViol a o else d
    let d1 := (d1.bufferRwe o m v).bufferRws o m v
    let d1 := d1.setReg o (clampWritten o (writeFields o (d1.reg o) m v locked))
    d1.regAction o (m &&& v) (!d.rb o 0)

/-- An interlocked value takes effect (R400, R533): FORCE governs LEAVE. DEDUCED, assumption 88. -/
def Dev.applyRwi (d : Dev) (o : Nat) (v : Word) : Dev :=
  if o = rLlBypass then
    let was := d.rb o 0
    let d := d.setReg o (v &&& 3#64)
    if bit v 0 then (d.setRb o 1 false).enterOut
    else if was && d.inService then d.enterJoining else d
  else d.rstAccept v

/-- A write at a register that the Interlock guards, or at its complement address (R439, R446). DEDUCED, assumption 76. -/
def Dev.ilkWrite (d : Dev) (a : Agent) (o : Nat) (complement wide : Bool) (v : Word) : Dev :=
  let held := d.box.ilk.find? (fun h => h.off == o)
  match held with
  | some h =>
    if h.agent ≠ a then d.ilkFail o 4
    else if !wide then d.ilkFail o 5
    else if !complement then d.withBox (fun b => { b with ilk := b.ilk.map (fun k => if k.off = o then { k with value := v } else k) })
    else if v = ~~~h.value then (d.withBox (fun b => { b with ilk := b.ilk.filter (fun k => k.off ≠ o) })).applyRwi o h.value
    else d.ilkFail o 1
  | none =>
    if !wide then d.ilkFail o 5
    else if complement then d.ilkFail o 3
    else d.withBox (fun b => { b with ilk := b.ilk ++ [⟨a, o, v⟩] })

/-- A write that an agent may make reaches its place. -/
def Dev.placeWrite (d : Dev) (a : Agent) (p : Place8) (wide : Bool) (m v : Word) : Dev :=
  if p.mirror then d
  else
    (match complementOf p.reg with
     | some o => d.ilkWrite a o true wide v
     | none => if isRwi p.reg then d.ilkWrite a p.reg false wide v else if p.window then d else d.regWrite a p.reg m v).refreshLevels

/-- Whether an agent's access can reach control space at all: a thread's core runs, outside a replay, and its store buffer is empty (R321); a
controller's link is up;
the device has power and has not failed its start (R433, R483). DEDUCED, assumption 78. -/
def Dev.reaches (d : Dev) (a : Agent) : Bool :=
  decide (d.box.power = .on) && decide (d.phase ≠ 7) && (match a with
    | .thread g => decide (g < Config.threads) && d.coreRuns g && !d.replaying (clusterOf g) && (d.thread g).sb.isEmpty
    | .pcia => d.pcieUp 0
    | .pcib => d.pcieUp 1
    | .box => true
    | .sideband => false)

/-- A write of 4 or 8 bytes of control space by an agent (R432-R434, R437): refused where the agent may not write the slot; a host write
that is not naturally aligned is discarded. DEDUCED, assumption 74. -/
def Dev.ctrlWrite (d : Dev) (a : Agent) (o : Nat) (wide : Bool) (v : Word) : Dev :=
  let p := placeOf o
  if !d.reaches a || decide (o % (if wide then 8 else 4) ≠ 0) then d
  else if !d.mayWrite a p.slot then d.lockViol a p.reg
  else if wide then d.placeWrite a p true (~~~0#64) v
  else
    let v := word (fld v 0 32)
    if p.high then d.placeWrite a p false 0xFFFFFFFF00000000#64 (v <<< 32) else d.placeWrite a p false 0xFFFFFFFF#64 v

/-- A write of the bit-alias word at offset `o` of its region (R444, R445): bit 0 of the value goes to one bit of the register.
DEDUCED, assumption 75. -/
def Dev.aliasWrite (d : Dev) (a : Agent) (o : Nat) (v : Word) : Dev :=
  let p := placeOf (o / 256 * 8)
  let k := o % 256 / 4
  if !d.reaches a || decide (o % 4 ≠ 0) then d
  else if !d.mayWrite a p.slot then d.lockViol a p.reg
  else if classMask p.reg .wo ≠ 0 && !(bit (classMask p.reg .wo) k && bit v 0) then d
  else d.placeWrite a p false (word (2 ^ k)) (if bit v 0 then word (2 ^ k) else 0)

end Sys2Proof.Machine
end

