-- ==== Sys2Proof/Machine/Control.lean ====
section
/-! DEFINITION. The commands of control space: register writes by row (R436-R445), the Interlock (R439), the mailboxes (R458, R459, R488, R489), PCIe
resets and links (R70, R459), scrubbing (R421), timers (R525), the random bit generator (R492) and the sideband (R563). -/
namespace Sys2Proof.Machine

open Sys2Proof

/-- A write command of an agent: a thread that is named must exist. -/
def agentExists : Agent → Bool
  | .thread g => decide (g < Config.threads)
  | _ => true
def onAgent (a : Agent) (s : State) (f : Dev → Dev) : Host.Outcome State Fault Refusal := onUnit (agentExists a) s f

/-- REGISTER_WRITE (R436). -/
def execRegisterWrite (a : Agent) (o : Nat) (wide : Bool) (v : BitVec 64) (s : State) : Host.Outcome State Fault Refusal :=
  onAgent a s (fun d => d.ctrlWrite a (o % 2 ^ 26) wide v)

/-- BIT_ALIAS_WRITE (R444, R445): `o` is the offset in the bit-alias region. -/
def execBitAliasWrite (a : Agent) (o : Nat) (v : BitVec 32) (s : State) : Host.Outcome State Fault Refusal :=
  onAgent a s (fun d => d.aliasWrite a (o % 2 ^ 21) (v.setWidth 64))

/-- The interlocked register of a command. -/
def rwiReg (reset : Bool) : Nat := if reset then rPwrRstcmd else rLlBypass

/-- INTERLOCK_VALUE_WRITE (R439): the first write. -/
def execInterlockValueWrite (a : Agent) (reset : Bool) (v : BitVec 64) (s : State) : Host.Outcome State Fault Refusal :=
  onAgent a s (fun d => d.ctrlWrite a (rwiReg reset) true v)

/-- INTERLOCK_TIMEOUT (R439): 10 µs have passed. -/
def execInterlockTimeout (reset : Bool) (s : State) : Host.Outcome State Fault Refusal :=
  onDev s (fun d => if d.box.ilk.any (fun h => h.off == rwiReg reset) then d.ilkFail (rwiReg reset) 2 else d)

/-- The second write of the Interlock procedure for a value (R440): its complement. -/
def Dev.complementWrite (d : Dev) (a : Agent) (reset : Bool) (v : Word) : Dev := d.ctrlWrite a (rwiReg reset + 0x800) true (~~~v)

/-- CFG_LOCK_WRITE (R441). -/
def execCfgLockWrite (a : Agent) (v : BitVec 64) (s : State) : Host.Outcome State Fault Refusal :=
  onAgent a s (fun d => d.ctrlWrite a rCfgLock true v)

/-- RWS_APPLY (R443): the slow tick; the always-on value takes what was written, and the CTRL copy is refreshed. DEDUCED, assumption 79. -/
def execRwsApply (s : State) : Host.Outcome State Fault Refusal :=
  onDev s (fun d =>
    let v := (SMap.get (fun _ => (none : Option Word)) d.box.rws rPwrCaution).getD d.box.caution
    let d := d.withBox (fun b => { b with caution := v, rws := [] })
    if d.box.power = .on then d.setReg rPwrCaution v else d)

/-- SNP_GO (R449). -/
def execSnpGo (a : Agent) (s : State) : Host.Outcome State Fault Refusal := onAgent a s (fun d => d.ctrlWrite a rSnpCtl true 1)

/-- A mailbox command's register value (R458). -/
def mbxWord (tag vec code : Nat) : Word := word (tag % 2 ^ 32 * 2 ^ 32 + vec % 2 ^ 11 * 2 ^ 16 + code * 256 + 1)
/-- A mailbox command (R458, R459, R488). DEDUCED, assumption 98. -/
def mailbox (code : Nat) (a : Agent) (ctl tag vec : Nat) (s : State) : Host.Outcome State Fault Refusal :=
  onUnit (agentExists a && decide (ctl < 2)) s (fun d => d.ctrlWrite a (rPciMbxCmd ctl) true (mbxWord tag vec code))
/-- SYNC (R459). -/
def execSync (a : Agent) (ctl tag vec : Nat) (s : State) : Host.Outcome State Fault Refusal := mailbox 1 a ctl tag vec s
/-- IDENTITY (R488). -/
def execIdentity (a : Agent) (ctl tag vec : Nat) (s : State) : Host.Outcome State Fault Refusal := mailbox 2 a ctl tag vec s
/-- QUOTE (R489). -/
def execQuote (a : Agent) (ctl tag vec : Nat) (s : State) : Host.Outcome State Fault Refusal := mailbox 3 a ctl tag vec s

/-- The ASCII bytes of a string. -/
def ascii (s : String) : List Byte := s.toList.map (fun c => BitVec.ofNat 8 c.toNat)

/-- The IDENTITY buffer (R488). -/
def identityBytes : List Byte :=
  let key := padTo 1952 Config.identityKey
  padTo 4096 (ascii "RT96IDNT" ++ leBytes 2 0x9600 ++ leBytes 1 0xA1 ++ leBytes 5 0 ++ devIdBytes ++ shake256 key ++ key)

/-- Bytes 0-199 of the QUOTE buffer (R489). -/
def Dev.quoteHead (d : Dev) (nonce : List Byte) : List Byte :=
  let failed := decide (d.phase = 7)
  let fuses := shake256 (kamrovKh ++ ownerKh ++ devIdBytes ++ leBytes 8 (2 ^ d.svFloor - 1))
  padTo 200 (ascii "RT96QUOT" ++ padTo 32 nonce ++ devIdBytes ++ (if failed then leBytes 32 0 else padTo 32 d.tt.digest)
    ++ padTo 32 d.tt.cpDigest ++ padTo 32 d.tt.clpDigest ++ fuses ++ leBytes 8 (if failed then 0 else d.tt.gen) ++ leBytes 1 d.svFloor
    ++ leBytes 1 (if failed then 0 else d.rf rSbxStart 34 1))

/-- The next signature of the device's identity key (R353, R489), whose randomness is a request of the generator (R492). -/
def Dev.sign (d : Dev) (message context : List Byte) : List Byte × Dev :=
  (padTo 3309 (Config.mlDsaSign d.free message context), { d with free := d.free + 1 }.rngRequest)

/-- A mailbox command completes (R459, R488): the buffer is written, bytes 0-7 last, DONE is set, and the message is sent. -/
def Dev.mbxDone (d : Dev) (n : Nat) (bs : List Byte) : Dev :=
  let a := d.rf (rPciMbxAddr n) 12 52 * 4096
  let d := (d.say (.hostWrite n pf0 (a + 8) (clean (bs.drop 8)))).say (.hostWrite n pf0 a (clean (bs.take 8)))
  let d := ((d.setMbx n none).setRb (rPciMbxCmd n) 0 false).setRb (rPciMbxCmd n) 1 true
  d.say (.msix n pf0 (d.rf (rPciMbxCmd n) 16 11))

/-- A QUOTE waits for a chain signature that is being made, and for a QUOTE of the other controller whose GO came before (R493). DEDUCED,
assumption 98. -/
def Dev.quoteTurn (d : Dev) (ctl : Nat) (j : MbxJob) : Bool :=
  d.jnl.signing.isNone && (match d.mbx (1 - ctl) with | some k => !(decide (k.code = 3) && decide (k.turn < j.turn)) | none => true)

/-- MAILBOX_COMMAND_DONE of controller `ctl` (R459, R488, R489): a SYNC whose content has been taken at a boundary, IDENTITY, or QUOTE over the nonce that
the host's buffer held. DESIGN CHOICE, assumption 60. -/
def execMailboxCommandDone (ctl : Nat) (nonce : List Byte) (s : State) : Host.Outcome State Fault Refusal :=
  onUnit (decide (ctl < 2)) s (fun d =>
    match d.mbx ctl with
    | none => d
    | some j =>
      if j.code = 1 then (match j.content with | some bs => d.mbxDone ctl (vals bs) | none => d)
      else if j.code = 2 then d.mbxDone ctl identityBytes
      else if !d.quoteTurn ctl j then d
      else if d.box.rngStopped then d.mbxEnd ctl 1
      else
        let head := d.quoteHead nonce
        let r := d.sign (shake256 head) (ascii "RT9600-QUOTE")
        r.2.mbxDone ctl (padTo 4096 (padTo 256 head ++ r.1)))

/-- CFG_IRT_DATA_WRITE (R292). -/
def execCfgIrtDataWrite (a : Agent) (v : BitVec 32) (s : State) : Host.Outcome State Fault Refusal :=
  onAgent a s (fun d => d.ctrlWrite a rCfgIrtData false (v.setWidth 64))
/-- CFG_SWI (R292). -/
def execCfgSwi (a : Agent) (v : BitVec 32) (s : State) : Host.Outcome State Fault Refusal :=
  onAgent a s (fun d => d.ctrlWrite a rCfgSwi false (v.setWidth 64))
/-- QM_KDB_WRITE (R72, R73). -/
def execQmKdbWrite (a : Agent) (v : BitVec 64) (s : State) : Host.Outcome State Fault Refusal :=
  onAgent a s (fun d => d.ctrlWrite a rQmKdb true v)
/-- KERNEL_QUEUE_RESET of queue `q` (R73). -/
def execKernelQueueReset (a : Agent) (q : BitVec 13) (s : State) : Host.Outcome State Fault Refusal :=
  onAgent a s (fun d => d.ctrlWrite a rQmKqsel true (word (2 ^ 62 + q.toNat)))
/-- PIN_COMMAND (R109, R117). -/
def execPinCommand (a : Agent) (cluster : BitVec 5) (track : BitVec 16) (s : State) : Host.Outcome State Fault Refusal :=
  onAgent a s (fun d => d.ctrlWrite a rYrdPincmd true (word (2 ^ 24 + cluster.toNat * 2 ^ 16 + track.toNat)))
/-- UNPIN_COMMAND (R109, R117). -/
def execUnpinCommand (a : Agent) (track : BitVec 16) (s : State) : Host.Outcome State Fault Refusal :=
  onAgent a s (fun d => d.ctrlWrite a rYrdPincmd true (word (2 * 2 ^ 24 + track.toNat)))
/-- YRD_FORBID_WRITE (R110, R111, R116). -/
def execYrdForbidWrite (a : Agent) (v : BitVec 32) (s : State) : Host.Outcome State Fault Refusal :=
  onAgent a s (fun d => d.ctrlWrite a rYrdForbid false (v.setWidth 64))
/-- YRD_SNAP_GO (R120). -/
def execYrdSnapGo (a : Agent) (v : BitVec 64) (s : State) : Host.Outcome State Fault Refusal :=
  onAgent a s (fun d => d.ctrlWrite a rYrdSnap true (v ||| 1#64))
/-- JNL_QDATA_WRITE (R354, R361). -/
def execJnlQdataWrite (a : Agent) (v : BitVec 32) (s : State) : Host.Outcome State Fault Refusal :=
  onAgent a s (fun d => d.ctrlWrite a rJnlQdata false (v.setWidth 64))
/-- LINE_UPDATE (R378, R401). -/
def execLineUpdate (a : Agent) (v : BitVec 64) (s : State) : Host.Outcome State Fault Refusal :=
  onAgent a s (fun d => d.ctrlWrite a rLlLupd true (v ||| 1#64))
/-- LEAVE (R390, R400): the complement that ends the Interlock procedure for LEAVE. -/
def execLeave (a : Agent) (s : State) : Host.Outcome State Fault Refusal := onAgent a s (fun d => d.complementWrite a false 2)
/-- FORCE (R400), likewise. -/
def execForce (a : Agent) (on : Bool) (s : State) : Host.Outcome State Fault Refusal :=
  onAgent a s (fun d => d.complementWrite a false (word on.toNat))
/-- HEAL (R415, R427). -/
def execHeal (a : Agent) (v : BitVec 64) (s : State) : Host.Outcome State Fault Refusal :=
  onAgent a s (fun d => d.ctrlWrite a rMicHeal true (v ||| 1#64))
/-- THREAD_RESTART of thread `g` (R532, R533): the complement that ends the Interlock procedure. -/
def execThreadRestart (a : Agent) (g : Nat) (s : State) : Host.Outcome State Fault Refusal :=
  onAgent a s (fun d => d.complementWrite a true (word (g % 4096 * 2 ^ 16 + 1)))
/-- CLUSTER_RESET (R531, R533), likewise. -/
def execClusterReset (a : Agent) (mask : BitVec 32) (s : State) : Host.Outcome State Fault Refusal :=
  onAgent a s (fun d => d.complementWrite a true (word (mask.toNat * 2 ^ 32 + 2)))
/-- DEVICE_SOFT_RESET (R530, R533), likewise. -/
def execDeviceSoftReset (a : Agent) (s : State) : Host.Outcome State Fault Refusal := onAgent a s (fun d => d.complementWrite a true 3)
/-- STANDBY_ENTRY (R533, R536), likewise. -/
def execStandbyEntry (a : Agent) (s : State) : Host.Outcome State Fault Refusal := onAgent a s (fun d => d.complementWrite a true 4)
/-- CLK_TODSTEP (R524). -/
def execClkTodstep (a : Agent) (v : BitVec 64) (s : State) : Host.Outcome State Fault Refusal :=
  onAgent a s (fun d => d.ctrlWrite a rClkTodstep true v)

/-- A 1 written to one command bit of a register through its alias word (R444). DESIGN CHOICE, assumption 77. -/
def Dev.bitWrite (d : Dev) (a : Agent) (o k : Nat) : Dev := d.aliasWrite a (32 * o + 4 * k) 1
/-- FREEZE (R503, R513). -/
def execFreeze (a : Agent) (s : State) : Host.Outcome State Fault Refusal := onAgent a s (fun d => d.bitWrite a rTrgCtl 0)
/-- REARM (R506, R513). -/
def execRearm (a : Agent) (s : State) : Host.Outcome State Fault Refusal := onAgent a s (fun d => d.bitWrite a rTrgCtl 1)
/-- EXPORT (R507, R516). -/
def execTrainExport (a : Agent) (v : BitVec 64) (s : State) : Host.Outcome State Fault Refusal :=
  onAgent a s (fun d => d.ctrlWrite a rTrgExpCtl true ((v &&& ~~~8#64) ||| 1#64))
/-- IMPORT (R510, R516). -/
def execTrainImport (a : Agent) (v : BitVec 64) (s : State) : Host.Outcome State Fault Refusal :=
  onAgent a s (fun d => d.ctrlWrite a rTrgExpCtl true (v ||| 9#64))
/-- REPLAY_ENTER of lab cluster `c` (R510, R517). -/
def execReplayEnter (a : Agent) (c : BitVec 5) (s : State) : Host.Outcome State Fault Refusal :=
  onAgent a s (fun d => d.ctrlWrite a rTrgRplCtl true (word (c.toNat * 256 + 1)))
/-- REPLAY_LOAD (R510, R517). -/
def execReplayLoad (a : Agent) (s : State) : Host.Outcome State Fault Refusal := onAgent a s (fun d => d.bitWrite a rTrgRplCtl 1)
/-- REPLAY_GO (R510, R517). -/
def execReplayGo (a : Agent) (s : State) : Host.Outcome State Fault Refusal := onAgent a s (fun d => d.bitWrite a rTrgRplCtl 2)
/-- REPLAY_DUMP (R510, R517). -/
def execReplayDump (a : Agent) (s : State) : Host.Outcome State Fault Refusal := onAgent a s (fun d => d.bitWrite a rTrgRplCtl 3)
/-- REPLAY_EXIT (R510, R517). -/
def execReplayExit (a : Agent) (s : State) : Host.Outcome State Fault Refusal := onAgent a s (fun d => d.bitWrite a rTrgRplCtl 4)
/-- PTP_RX_ENABLE on port `p` (R555). -/
def execPtpRxEnable (p : Nat) (a : Agent) (v : BitVec 64) (s : State) : Host.Outcome State Fault Refusal :=
  onUnit (agentExists a && decide (p < 8)) s (fun d => d.ctrlWrite a (rEthPtpctl p) true v)
/-- PTP_RX_HEAD_WRITE on port `p` (R555). -/
def execPtpRxHeadWrite (p : Nat) (a : Agent) (v : BitVec 32) (s : State) : Host.Outcome State Fault Refusal :=
  onUnit (agentExists a && decide (p < 8)) s (fun d => d.ctrlWrite a (rEthPtprxidx p) false (v.setWidth 64))
/-- PTP_TX on port `p` (R556). -/
def execPtpTx (p : Nat) (a : Agent) (v : BitVec 64) (s : State) : Host.Outcome State Fault Refusal :=
  onUnit (agentExists a && decide (p < 8)) s (fun d => d.ctrlWrite a (rEthPtptxcmd p) true (v ||| 1#64))

/-- SCRUB_READ of the line or word at `addr` (R421): never writes; `ups` are the upsets it finds. DEDUCED, assumption 82. -/
def execScrubRead (addr : Nat) (ups : List Upset) (s : State) : Host.Outcome State Fault Refusal :=
  onDev s (fun d =>
    if d.inService && d.rb rMicCtl 1 then
      if addr < Config.hbmEnd then
        (d.addUpsets (ups.filter (fun u => decide (u.addr / 64 = addr / 64)))).hbmRead (addr / 64) true
      else match d.region addr with
        | .control | .bitAlias | .none => d
        | _ => (d.addUpsets (ups.filter (fun u => decide (Config.hbmEnd ≤ u.addr ∧ u.addr / 8 = addr / 8)))).sramRead (addr / 8 * 8) true
    else d)

/-- A mailbox command in progress is cancelled (R459). -/
def Dev.mbxCancel (d : Dev) (ctl cause : Nat) : Dev := if (d.mbx ctl).isSome then d.mbxEnd ctl cause else d

/-- FUNCTION_LEVEL_RESET (R70, R459, R516). -/
def execFunctionLevelReset (ctl : Nat) (f : PciFn) (s : State) : Host.Outcome State Fault Refusal :=
  onUnit (decide (ctl < 2) && (match f with | .vf n => decide (1 ≤ n ∧ n ≤ 32) | _ => true)) s (fun d =>
    match f with
    | .pf0 => d.mbxCancel ctl 2
    | .pf1 => d.resetFunction ctl 0
    | .vf n => d.resetFunction ctl n
    | .pf2 => d.expCancel ctl)

def Dev.setPcieLink (d : Dev) (ctl : Nat) (up : Bool) : Dev := d.withBox (fun b => if ctl = 0 then { b with linkA := up } else { b with linkB := up })

/-- PERST_N of a controller falls (R70, R459, R493, R530): its link and functions only. -/
def execPerstN (ctl : Nat) (s : State) : Host.Outcome State Fault Refusal :=
  onUnit (decide (ctl < 2)) s (fun d =>
    let d := ((d.mbxCancel ctl 2).expCancel ctl).setPcieLink ctl false
    (List.range 33).foldl (fun d f => d.resetFunction ctl f) d)

/-- PCIE_LINK_UP (R481, R557). -/
def execPcieLinkUp (ctl : Nat) (s : State) : Host.Outcome State Fault Refusal :=
  onUnit (decide (ctl < 2)) s (fun d => if d.box.power = .on then (d.setPcieLink ctl true).drainAcks else d)

/-- PCIE_LINK_DOWN (R458, R516, R520): a mailbox command or an export on the controller fails. -/
def execPcieLinkDown (ctl : Nat) (s : State) : Host.Outcome State Fault Refusal :=
  onUnit (decide (ctl < 2)) s (fun d => ((d.mbxCancel ctl 3).expCancel ctl).setPcieLink ctl false)

/-- TIMER_EXPIRY of timer `i` (R525). DEDUCED, assumption 90. -/
def execTimerExpiry (i : Nat) (s : State) : Host.Outcome State Fault Refusal :=
  onUnit (decide (i < 128)) s (fun d =>
    let t := d.timer i
    if d.box.power = .on ∧ t.en = true ∧ t.deadline ≤ d.now then
      let t := if t.period = 0 then { t with en := false }
        else { t with deadline := (t.deadline + ((d.now - t.deadline) / t.period + 1) * t.period) % 2 ^ 64 }
      (d.setTimer i t).edge (96 + i)
    else d)

/-- SBX_RNG_READ by an agent (R492). -/
def execSbxRngRead (a : Agent) (s : State) : Host.Outcome State Fault Refusal :=
  onAgent a s (fun d => if d.box.power = .on then (d.ctrlRead rSbxRng true).2.say (.value a (d.ctrlRead rSbxRng true).1) else d)

/-- RNG_HEALTH_FAIL (R492). -/
def execRngHealthFail (s : State) : Host.Outcome State Fault Refusal :=
  onDev s (fun d => if d.box.power = .on then (d.withBox (fun b => { b with rngStopped := true })).logBox .rngFail else d)

/-- Whether the sideband answers (R563): VAON is up and phase 0 of the last start has completed. -/
def Dev.sidebandUp (d : Dev) : Bool := decide (d.box.power ≠ .off) && !(decide (d.box.power = .held) && decide (d.box.kind = 0))

/-- SIDEBAND_READ (R433, R563): a register of slot 9, 10 or 12; any other offset is refused. DEDUCED, assumption 83. -/
def execSidebandRead (o : Nat) (s : State) : Host.Outcome State Fault Refusal :=
  onUnit (decide (o < 65536)) s (fun d =>
    let slot := o / 4096
    if !d.sidebandUp then d
    else if (slot = 9 ∨ slot = 10 ∨ slot = 12) ∧ o % 8 = 0 then
      (d.ctrlRead o true).2.say (.sideband (leBytes 8 (d.ctrlRead o true).1.toNat))
    else d.say (.sideband (List.replicate 8 0xFF#8)))

/-- SIDEBAND_STATUS (R563). -/
def execSidebandStatus (s : State) : Host.Outcome State Fault Refusal :=
  onDev s (fun d =>
    let power := if d.box.power = .standby ∨ d.box.power = .tripped then 2 else if d.gated.isEmpty then 0 else 1
    let v := d.phase + power * 16 + low16 (d.box.hot / 8) % 256 * 256 + (d.rb rPwrStatus 2).toNat * 2 ^ 16 + d.thermtripped.toNat * 2 ^ 17
      + d.alert.toNat * 2 ^ 18
    if d.sidebandUp then d.say (.sideband (leBytes 4 v)) else d)

end Sys2Proof.Machine
end

