-- ==== Sys2Proof/Machine/Boundary.lean ====
section
/-! DEFINITION. The epoch boundary (R344-R347): the tick, epoch-applied writes (R438), the Yard and the ring, counter snapshots (R449) and the Box
Diagram (R459-R467), the seal; and chain signatures (R353). -/
namespace Sys2Proof.Machine

open Sys2Proof

/-- A field of a word brought to the nearer end of its range. -/
def clampFld (lo n a b : Nat) (w : Word) : Word := setFld w lo n (clamp a b (fld w lo n))

/-- The ranges of epoch-applied fields (R438; R56, R114, R115, R358, R397, R423). -/
def clampRwe (o : Nat) (w : Word) : Word :=
  if o = rQmWtCtl then clampFld 16 12 0 2000 w
  else if o = rYrdCtl then clampFld 24 5 1 16 (clampFld 16 4 1 15 (clampFld 8 6 0 32 w))
  else if o = rYrdPolicy then clampFld 24 6 1 63 (clampFld 16 8 5 200 (clampFld 8 6 1 63 (clampFld 0 7 50 100 w)))
  else if o = rJnlCtl then clampFld 8 16 100 60000 (clampFld 0 7 2 64 w)
  else if o = rLlCtl then clampFld 32 8 10 100 (clampFld 24 8 16 255 (clampFld 8 16 10 1000 w))
  else if o = rMicCtl then clampFld 24 8 1 60 (clampFld 16 8 1 168 (clampFld 8 8 2 255 w))
  else w

/-- The epoch-applied fields of register `o` take the value `v`, with what follows from it (R407, R428, R521, R538). -/
def Dev.applyRweAt (d : Dev) (o : Nat) (v : Word) : Dev :=
  let d := d.setReg o (merge (classMask o .rwe) (d.reg o) (clampRwe o v))
  if o = rMicErase then
    (List.range 4).foldl (fun d s =>
      let e := d.rf rMicErase (4 * s) 4
      d.setRf (rHbmStatus s) 20 4 (if e < 12 then e else 15)) d
  else if o = rPwrCtl then d.stepUpdate
  else d

/-- Order 2 of R346: every pending write is applied at one instant (R438). -/
def Dev.applyRwe (d : Dev) : Dev :=
  (d.box.rwe.foldl (fun d p => match p.2 with | some v => d.applyRweAt p.1 v | none => d) d).withBox (fun b => { b with rwe := [] })

/-- Order 1 of R346: the closing epoch is sealed, and the next one opens (R344, R345). A device with no chain yet, or in FENCED, seals nothing. -/
def Dev.closeOpenEpoch (d : Dev) : Dev :=
  if d.jnl.epoch = 0 then d
  else
    let d := if d.ring.state = .fenced then d
      else match d.makeSeal with
        | some e => e
        | none => (d.setRb rJnlErr 3 true).enterFenced
    d.withJnl (fun j => { j with epoch := (j.epoch + 1) % 2 ^ 64, count := 0, first := 0 })

/-- Clusters that are not eligible now, as a mask (R110, R535). -/
def Dev.barredNow (d : Dev) : Nat := d.rf rYrdForbid 0 32 ||| d.rf rPwrNapen 0 32

/-- What of membership takes effect at a boundary (R382, R383, R388, R390, R391). -/
def Dev.ringBoundary (d : Dev) : Dev :=
  let us := d.ring.pendingMemb
  let d := us.foldl Dev.applyMemb (d.withRing (fun r => { r with pendingMemb := [] }))
  let xs := d.ring.adopting
  let d := xs.foldl (fun d x => if d.ring.state = .member ∨ d.ring.state = .leaving then d.adopt x.1 x.2 else d)
    (d.withRing (fun r => { r with adopting := [] }))
  d.handStep.leaveStep.joinStep

/-- Owners of tracks, and homes of owned tracks, where they are not those of an unlisted track. -/
def Dev.placement (d : Dev) : List (Nat × Nat × Nat) :=
  d.yard.tracks.filterMap (fun p =>
    if p.2.owner = Track.reset.owner ∧ !p.2.owned then none else some (p.1, p.2.owner, if p.2.owned then p.2.home + 1 else 0))

/-- Every live register that holds a counter (R448). -/
def counterRegs : List Nat := ((List.range 0x8000).map (fun i => 8 * i)).filter hasCounter

/-- The counter snapshot that SNP_CTL.GO asks for (R449): `t` is the device at the tick. -/
def Dev.snapCounters (d t : Dev) : Dev :=
  if d.rb rSnpCtl 0 then
    let copies := counterRegs.foldl (fun m o => SMap.set (fun _ => (0 : Word)) m o (t.liveValue o)) []
    let d := d.withBox (fun b => { b with copies := copies })
    (((d.setReg rSnpStamp (word d.jnl.epoch)).setReg rSnpTod (word t.now)).setRb rSnpCtl 1 true).setRb rSnpCtl 0 false
  else d

/-- Bytes 8-255 of the header of the Box Diagram, TAG and CTRL apart (R461). -/
def Dev.boxHeader (d : Dev) : List (Nat × List Byte) := [
  (24, leBytes 8 d.jnl.epoch ++ leBytes 8 d.now ++ leBytes 2 0x9600 ++ leBytes 1 0xA1 ++ leBytes 1 (d.tt.ringId % 16)),
  (48, leBytes 8 d.tt.ringname ++ leBytes 8 d.tt.gen ++ padTo 32 d.tt.digest ++ padTo 32 d.hashId ++ devIdBytes ++ leBytes 8 d.box.startTod
    ++ leBytes 1 d.box.kind)]

/-- A register as it reads, in 8 bytes. -/
def Dev.regBytes (d : Dev) (o : Nat) : List Byte := leBytes 8 (d.liveValue o).toNat

/-- Journal, epoch and placement (R462): `d` after orders 2 and 3, `t` at the tick. -/
def Dev.boxJournal (d t : Dev) : List (Nat × List Byte) :=
  let sealSeq := match (d.jnl.units.filter (fun u => u.kind == 1)).getLast? with | some u => u.seq | none => 0
  let s := t.jnl.lastSeal
  [(0x100, t.regBytes rJnlEpoch ++ t.regBytes rJnlCommit ++ leBytes 8 t.jnl.lastEntry ++ leBytes 8 sealSeq
    ++ (if s.isEmpty then leBytes 8 0 ++ padTo 32 (d.digest0 d.tt.ringId) else leBytes 8 (ufld s 0 8 % 2 ^ 62) ++ padTo 32 (s.drop 32))
    ++ d.regBytes rJnlCtl ++ t.regBytes rJnlFill ++ leBytes 4 d.yard.gen ++ leBytes 4 d.yard.hold.length
    ++ d.regBytes rYrdCtl ++ d.regBytes rYrdPolicy ++ d.regBytes rYrdForbid ++ d.regBytes rYrdStatus ++ d.regBytes rYrdErr
    ++ d.regBytes rQmWtCtl ++ d.regBytes rPeDir)]

/-- A member entry of the ring section (R463). -/
def Dev.memberEntry (d : Dev) (m : Nat) : List Byte :=
  let me := d.tt.ringId
  let st := if m = me then ufld d.beatUnit 0 1
    else match d.beat m with
      | some b => ufld b.bytes 0 1
      | none => if d.ring.isLive m then 3 else 0xFF
  let near := decide ((d.liveEast me).head? = some m ∨ (d.liveWest me).head? = some m)
  let flags := (d.ring.isLive m).toNat + 2 * (decide ((d.liveEast me).head? = some m)).toNat + 4 * (decide (((d.liveEast me).drop 1).head? = some m)).toNat
    + 8 * (d.ring.adopted.testBit m).toNat + 16 * ((d.holders m).contains me).toNat
  leBytes 1 st ++ leBytes 1 flags ++ leBytes 2 0
  ++ leBytes 4 (if near && decide (m ≠ me) then (match d.beat m with | some b => ufld b.bytes 24 8 | none => 0) else 0)

/-- The ring section (R463). -/
def Dev.boxRing (d t : Dev) : List (Nat × List Byte) := [
  (0x200, t.regBytes rLlStatus ++ d.regBytes rLlCtl ++ t.regBytes rLlSpool ++ leBytes 1 (if t.ring.inserted then 0xFF else 0)
    ++ leBytes 1 (t.rf rLlBypass 0 2)),
  (0x240, ((List.range 16).map t.memberEntry).flatten)]

/-- Threads that are stopped, in ascending order (R460). -/
def Dev.stopped (d : Dev) : List Nat := (d.thr.filter (fun p => decide (p.2.run = .locked))).map (fun p => p.1)

/-- Power, Train Register and errors (R464), of the tick; YRD_ERR is Yard state. -/
def Dev.boxPower (d t : Dev) : List (Nat × List Byte) := [
  (0x300, leBytes 1 (!t.gated.isEmpty).toNat ++ leBytes 1 (t.rf rPwrStatus 0 2) ++ leBytes 1 (t.rb rPwrStatus 2).toNat),
  (0x304, leBytes 4 (t.rf rPwrStatus 16 32) ++ leBytes 8 (fld t.box.caution 32 32) ++ leBytes 2 (t.rf rPwrStatus 48 16) ++ leBytes 2 (low16 t.box.hot)),
  (0x340, leBytes 1 t.trgState ++ leBytes 1 (t.rf rTrgStatus 20 4)),
  (0x344, leBytes 4 t.trg.clusters ++ leBytes 8 ((t.trg.frozen.map (fun f => f.tod)).getD 0) ++ leBytes 8 (t.rf rTrgWin 30 18 * 2 ^ 30)
    ++ leBytes 4 (t.rf rTrgWin 16 5 * 1024) ++ leBytes 4 (t.windowNs / 1000)),
  (0x380, t.regBytes rMicStatus ++ t.regBytes rMicUelog ++ t.regBytes rPeErr ++ t.regBytes rJnlErr ++ t.regBytes rLlErr ++ d.regBytes rYrdErr
    ++ t.regBytes rQmWtDrop ++ t.regBytes rCfgIlk ++ t.regBytes rCfgLockviol ++ t.regBytes rCfgIrtSel ++ leBytes 4 t.stopped.length)]

/-- Pending epoch-applied writes (R465), as they stood at the tick. -/
def Dev.boxPending (t : Dev) : List (Nat × List Byte) :=
  let n := t.box.rwe.length
  [(0x400, t.regBytes rCfgPending ++ leBytes 4 n ++ leBytes 4 (decide (127 < n)).toNat
    ++ ((t.box.rwe.take 127).map (fun p => leBytes 8 p.1 ++ leBytes 8 (p.2.getD 0).toNat)).flatten)]

/-- A cluster entry (R466). -/
def Dev.clusterEntry (d t : Dev) (c : Nat) : List Byte :=
  let x := t.cluster c
  let st := if t.replaying c then 4 else if t.inReset c then 2 else if !x.released then 3 else if x.napping then 1 else 0
  let ls := List.range 96
  let locked := ls.any (fun l => decide ((t.thread (96 * c + l)).run = .locked))
  let busy := (ls.map (fun l => (t.thread (96 * c + l)).consist.isSome.toNat * 2 ^ l)).sum
  let l := SMap.get (fun _ => Load.reset) d.yard.loads c
  leBytes 1 st ++ leBytes 1 ((d.rb rYrdForbid c).toNat + 2 * locked.toNat) ++ leBytes 2 0 ++ leBytes 4 (d.homed c)
  ++ leBytes 12 (SMap.get (fun _ => 0) t.tt.pools c) ++ leBytes 12 busy
  ++ t.regBytes (rClLock c) ++ t.regBytes (rClLockaddr c) ++ t.regBytes (rClSplit c) ++ leBytes 4 l.wait

/-- The Box Diagram (R459, R460) for controller `n`: `d` after orders 2 and 3 of the boundary, `t` at the tick, `recsd` the records that the closed
epoch dispatched, by cluster. DEDUCED, assumption 50. -/
def Dev.boxDiagram (d t : Dev) (recsd : Nat → Nat) (n : Nat) : List Byte :=
  let qs := (List.range 8192).map t.queue
  layoutBytes 98304 ([
    (0, ascii "RT96BOXD" ++ leBytes 2 1 ++ leBytes 2 0 ++ leBytes 4 98304 ++ leBytes 4 (t.rf (rPciMbxCmd n) 32 32) ++ leBytes 1 n)]
    ++ d.boxHeader ++ d.boxJournal t ++ d.boxRing t ++ d.boxPower t ++ t.boxPending ++ [
    (0xC00, leBytes 384 ((t.stopped.map (fun g => 2 ^ g)).sum)),
    (0x1000, ((List.range 32).map (fun c => d.clusterEntry t c ++ leBytes 4 (recsd c))).flatten),
    (0x4000, (qs.map (fun q => BitVec.ofNat 8 (q.kind % 8 + 8 * q.enable.toNat + 16 * q.qerr.toNat)))),
    (0x8000, (qs.map (fun q => leBytes 4 q.head ++ leBytes 4 q.tail)).flatten)])

/-- The SYNC commands that wait take the Box Diagram of this boundary (R459). -/
def Dev.takeSync (d t : Dev) (recsd : Nat → Nat) : Dev :=
  [0, 1].foldl (fun d n => match d.mbx n with
    | some j => if j.code = 1 ∧ j.content = none then d.setMbx n (some { j with content := some (clean (d.boxDiagram t recsd n)) }) else d
    | none => d) d

/-- Orders 1-3 of R346, and what of membership falls at the boundary; the placement generation moves where a HOME or an OWNER did (R107). -/
def Dev.boundaryMoves (d : Dev) : Dev :=
  let was := d.placement
  let d := d.tickCapture.closeOpenEpoch.applyRwe
  let now := d.barredNow
  let fresh := ((List.range 32).map (fun c => (now.testBit c && !d.yard.barred.testBit c).toNat * 2 ^ c)).sum
  let r := (d.withYard (fun y => { y with barred := now })).yardBoundary fresh
  let d := r.1.ringBoundary
  if r.2 || decide (d.placement ≠ was) then d.withYard (fun y => { y with gen := (y.gen + 1) % 2 ^ 32 }) else d

/-- An epoch boundary (R346). -/
def Dev.boundary (t : Dev) : Dev :=
  let recsd := fun c => (SMap.get (fun _ => Load.reset) t.yard.loads c).recsd
  let d := t.boundaryMoves
  let d := ((d.snapCounters t).yardSnapshot t.yard.tracks recsd).takeSync t recsd
  d.cutSwitch.scheduleCut.pumpEast.tryCommit.feedSeed.sendBeats.armCapture.refreshLevels

/-- An epoch boundary falls now (R344): the time is a multiple of the epoch length, and its boundary has not been made yet. None falls before the
clusters are released or in STANDBY (R438, R459). DESIGN CHOICE, assumption 3. -/
def Dev.boundaryDue (d : Dev) : Bool :=
  d.inService && decide (d.now % (1000 * d.epochUs) = 0 ∧ d.jnl.tickAt ≠ some d.now)

/-- EPOCH_BOUNDARY (R344, R346): nothing where none falls now. -/
def execEpochBoundary (s : State) : Host.Outcome State Fault Refusal :=
  onDev s (fun d => if d.boundaryDue then (d.withJnl (fun j => { j with tickAt := some d.now })).boundary else d)

/-- A period mark is skipped (R353, R362). -/
def Dev.skipMark (d : Dev) : Dev := (d.count rJnlErr 16 16).setRb rJnlErr 2 true

/-- A period mark falls now (R353): the time is a multiple of the period, SIGN_EN is 1, and the mark has not been made yet. -/
def Dev.signMarkDue (d : Dev) : Bool :=
  d.inService && d.rb rJnlCtl 24
    && decide (d.now % (1000000 * clamp 100 60000 (d.rf rJnlCtl 8 16)) = 0 ∧ d.jnl.markAt ≠ some d.now)

/-- A period mark (R353, R492): the next seal is to be signed, or the mark is skipped while a signature is being made or the generator is stopped. -/
def Dev.signMark (d : Dev) : Dev :=
  let d := d.withJnl (fun j => { j with markAt := some d.now })
  if d.jnl.signing.isSome || d.box.rngStopped then d.skipMark else d.withJnl (fun j => { j with markDue := true })

/-- SIGN_PERIOD_MARK (R353): nothing where none falls now. DESIGN CHOICE, assumptions 3 and 99. -/
def execSignPeriodMark (s : State) : Host.Outcome State Fault Refusal :=
  onDev s (fun d => if d.signMarkDue then d.signMark else d)

/-- The 61 signature units of a seal (R353). -/
def signatureUnits (sl sig : List Byte) : List (List Byte) :=
  (leBytes 8 (3 * 2 ^ 62) ++ (sl.drop 8).take 8 ++ leBytes 8 (ufld sl 0 8 % 2 ^ 62) ++ leBytes 2 3309 ++ leBytes 6 0 ++ sl.drop 32)
  :: (List.range 60).map (fun i => leBytes 8 (3 * 2 ^ 62 + i + 1) ++ padTo 56 (sig.drop (56 * i)))

/-- CHAIN_SIGNATURE (R353, R355): the group enters the buffer, or is not made. DEDUCED, assumption 86. -/
def execChainSignature (s : State) : Host.Outcome State Fault Refusal :=
  onDev s (fun d =>
    match d.jnl.signing with
    | none => d
    | some sl =>
      let d := d.withJnl (fun j => { j with signing := none })
      if d.box.rngStopped || decide (1024 < d.jnl.reserveUsed + 128) then d.skipMark
      else
        let r := d.sign sl []
        ((signatureUnits sl r.1).foldl (fun d u => d.addUnit 3 (ufld sl 0 8 % 2 ^ 62) (ufld sl 8 8) u) r.2).purge)

end Sys2Proof.Machine
end

