-- ==== Sys2Proof/Machine/Image.lean ====
section
/-! DEFINITION. The Timetable image (R470-R480): its layout, the checks made of it, and its sections. -/
namespace Sys2Proof.Machine

open Sys2Proof

/-- `n` bytes from offset `o`; whether every byte is zero; a byte string cut into whole entries of `n` bytes. -/
def bytesAt (bs : List Byte) (o n : Nat) : List Byte := (bs.drop o).take n
def zeros (bs : List Byte) : Bool := bs.all (fun b => decide (b = 0#8))
def entries (n : Nat) : Nat → List Byte → List (List Byte)
  | 0, _ => []
  | _, [] => []
  | k + 1, bs => bs.take n :: entries n k (bs.drop n)

/-- The last 256 MiB of HBM data (R481). -/
def stagingBase : Nat := 0x1AC2748000

/-- A directory entry (R472). -/
structure Sect where
  typ : Nat
  off : Nat
  len : Nat
  crc : Nat
  clear : Bool
  deriving DecidableEq, Repr

def imgSects (img : List Byte) : List Sect :=
  (List.range (ufld img 14 2)).map (fun i =>
    let e := bytesAt img (2240 + 32 * i) 32
    ⟨ufld e 0 2, ufld e 8 8, ufld e 16 8, ufld e 24 4, zeros (bytesAt e 2 6) && zeros (bytesAt e 28 4)⟩)

/-- The content of the one section of a type, if there is one. -/
def sectOf (img : List Byte) (t : Nat) : Option (List Byte) :=
  ((imgSects img).find? (fun s => s.typ == t)).map (fun s => bytesAt img s.off s.len)

def imgSigner (img : List Byte) : Nat := ufld img 13 1
def imgSvn (img : List Byte) : Nat := ufld img 24 4
def imgSigOff (img : List Byte) : Nat := ufld img 32 8
def imgSize (img : List Byte) : Nat := ufld img 40 8

/-- Check 1 of R480. -/
def magicOk (img : List Byte) : Bool := decide (bytesAt img 0 8 = ascii "RT96TTBL")

/-- Check 2 of R480 (R470). DEDUCED, assumption 67. -/
def headerOk (img : List Byte) : Bool :=
  decide (ufld img 8 2 = 1 ∧ ufld img 10 2 = 0x9600 ∧ ufld img 12 1 = 0xA1 ∧ imgSigner img ≤ 1 ∧ 1 ≤ ufld img 14 2 ∧ ufld img 14 2 ≤ 64
    ∧ ufld img 28 4 ≤ 1 ∧ imgSigOff img % 64 = 0 ∧ 2240 + 32 * ufld img 14 2 ≤ imgSigOff img
    ∧ imgSize img = imgSigOff img + 3328 ∧ imgSize img ≤ 2 ^ 28) && zeros (bytesAt img 48 208) && zeros (bytesAt img 2208 32)

/-- Check 3 of R480: the first condition of R471. -/
def signerKeyOk (img : List Byte) : Bool :=
  let h := shake256 (bytesAt img 256 1952)
  if imgSigner img = 0 then ownerProgrammed && decide (h = ownerKh) else decide (h = kamrovKh)

/-- No two of the sections overlap, in ascending offset, and the bytes after each up to the next, or to SIGOFF, are zero (R472). -/
def gapsOk (img : List Byte) : List Sect → Bool
  | [] => true
  | [s] => decide (s.off + s.len ≤ imgSigOff img) && zeros (bytesAt img (s.off + s.len) (imgSigOff img - (s.off + s.len)))
  | s :: t :: ss => decide (s.off + s.len ≤ t.off) && zeros (bytesAt img (s.off + s.len) (t.off - (s.off + s.len))) && gapsOk img (t :: ss)

/-- Check 5 of R480 (R472, R473); a Kamrov key section that is missing is check 8's. -/
def directoryOk (img : List Byte) : Bool :=
  let ss := imgSects img
  let n := fun t => (ss.filter (fun s => s.typ == t)).length
  ss.all (fun s => s.clear && decide (1 ≤ s.typ ∧ s.typ ≤ 10 ∧ s.off % 64 = 0 ∧ 2240 + 32 * ss.length ≤ s.off ∧ s.len % 8 = 0
      ∧ s.off + s.len ≤ imgSigOff img ∧ crc32c (bytesAt img s.off s.len) = s.crc))
  && gapsOk img (sorted (fun a b => decide (a.off ≤ b.off)) ss)
  && decide (n 1 = 1 ∧ n 5 = 1) && [2, 3, 4, 6, 7, 8, 9, 10].all (fun t => decide (n t ≤ 1))
  && (match sectOf img 10 with | some k => decide (k.length = 1984) && zeros (k.drop 1952) | none => true)

/-- TTDIGEST, and check 6 of R480 (R471). -/
def imgDigest (img : List Byte) : List Byte := shake256 (img.take (imgSigOff img))
def signatureOk (img : List Byte) : Bool :=
  Config.mlDsaVerify (bytesAt img 256 1952) (imgDigest img) (ascii "RT9600-TT") (bytesAt img (imgSigOff img) 3309)
    && zeros (bytesAt img (imgSigOff img + 3309) 19)

/-- Check 8 of R480. -/
def kamrovKeyOk (img : List Byte) : Bool :=
  match sectOf img 10 with
  | some k => decide (shake256 (k.take 1952) = kamrovKh)
  | none => (sectOf img 2).isNone && (sectOf img 3).isNone

/-- The digest of a patch, and check 9 of R480 for a patch of a kind (R477). -/
def patchDigest (p : List Byte) : List Byte := shake256 (p.take (64 + 65536))
def patchOk (img : List Byte) (kind : Nat) : Bool :=
  match sectOf img (kind + 1) with
  | none => true
  | some p =>
    decide (p.length = 64 + 65536 + 3328 ∧ bytesAt p 0 8 = ascii "RT96PTCH" ∧ ufld p 8 1 = kind ∧ ufld p 9 1 = 0xA1 ∧ ufld p 12 4 = 65536)
    && (if kind = 2 then zeros (bytesAt p 16 12) && zeros (bytesAt p 32 16) && decide (ufld p 28 2 % 4 = 2) else zeros (bytesAt p 28 2))
    && zeros (bytesAt p 30 2) && zeros (bytesAt p 48 16) && zeros (p.drop (64 + 65536 + 3309))
    && Config.mlDsaVerify (((sectOf img 10).getD []).take 1952) (patchDigest p) (ascii "RT9600-PATCH") (bytesAt p (64 + 65536) 3309)

/-- The plaintext of the core patch (R477, check 10 of R480). -/
def corePatch (p : List Byte) : Option (List Byte) := Config.gcmOpen (bytesAt p 16 12) (p.take 32) (bytesAt p 64 65536) (bytesAt p 32 16)
def decryptOk (img : List Byte) : Bool := match sectOf img 2 with | some p => (corePatch p).isSome | none => true

/-- The first of checks 1-10 of R480 that an image of which `img` has been read breaks; none where it passes them (R480). DEDUCED, assumption 66. -/
def imageError (floor : Nat) (img : List Byte) : Option Nat :=
  if !magicOk img then some 1
  else if !headerOk img then some 2
  else if !signerKeyOk img then some 3
  else if img.length < imgSize img then some 11
  else if !directoryOk img then some 6
  else if !signatureOk img then some 4
  else if imgSvn img < floor then some 5
  else if !kamrovKeyOk img then some 7
  else if !(patchOk img 1 && patchOk img 2) then some 8
  else if !decryptOk img then some 9
  else none

/-- The records of the device configuration section (R474). -/
def cfgRecs : Nat → List Byte → Option (List (Nat × List Byte))
  | _, [] => some []
  | 0, _ => none
  | n + 1, bs =>
    let len := ufld bs 4 4
    let all := 8 + (len + 7) / 8 * 8
    if bs.length < all ∨ ufld bs 2 2 ≠ 0 ∨ zeros (bytesAt bs (8 + len) (all - 8 - len)) = false then none
    else (cfgRecs n (bs.drop all)).map (fun rs => (ufld bs 0 2, bytesAt bs 8 len) :: rs)

/-- The length of the body of a record that occurs once, and of an entry of one that repeats (R474). -/
def bodyLen (t : Nat) : Nat := [0, 16, 65536, 16, 512, 196608, 48, 40, 4, 512, 16, 4, 16].getD t 0

/-- The records occur as often as they may, with bodies of the right length (R474). -/
def recsOk (rs : List (Nat × List Byte)) : Bool :=
  let n := fun t => (rs.filter (fun r => r.1 == t)).length
  rs.all (fun r => decide (1 ≤ r.1 ∧ r.1 ≤ 12) &&
    (if r.1 ≤ 6 ∨ r.1 = 9 then decide (r.2.length = bodyLen r.1) else decide (r.2.length % bodyLen r.1 = 0)))
  && [1, 2, 3, 4, 5, 6].all (fun t => decide (n t = 1)) && decide (n 9 ≤ 1)

/-- The body of the records of a type, concatenated, and its entries. -/
def bodyOf (rs : List (Nat × List Byte)) (t : Nat) : List Byte := ((rs.filter (fun r => r.1 == t)).map (fun r => r.2)).flatten
def entriesOf (rs : List (Nat × List Byte)) (t n : Nat) : List (List Byte) :=
  let b := bodyOf rs t
  entries n (b.length / n) b

/-- The kind that a queue may have by its number (R65, R66); 0 is allowed everywhere. -/
def kindOf (q : Nat) : Nat :=
  if q < 4096 then 1 else if q < 4160 then 2
  else if q < 6272 then (if queueLocal q < 16 then 4 else if queueLocal q < 24 then 5 else 3)
  else 6

/-- A QUEUES entry (R474, R65-R67). -/
def queueEntryOk (e : List Byte) : Bool :=
  let q := ufld e 0 2
  let x := descOfBytes (e.drop 8)
  let size := 2 ^ x.log2 * (if x.kind = 1 ∨ x.kind = 3 ∨ x.kind = 6 then 64 else 16)
  decide (q < 8192) && zeros (bytesAt e 2 6) && decide (x.kind = 0 ∨ (x.kind = kindOf q ∧ 4 ≤ x.log2 ∧ x.log2 ≤ 16
      ∧ x.base % Nat.min size 4096 = 0 ∧ (isHostQueue q = true ∨ (x.base < 2 ^ 48 ∧ x.wb = 0)) ∧ x.wb % 4 = 0
      ∧ (x.tail + 2 ^ 32 - x.head) % 2 ^ 32 ≤ 2 ^ x.log2))
    && decide (ufld e 26 1 < 4 ∧ ufld e 27 1 = 0)

/-- A PORTS entry (R474). -/
def portEntryOk (e : List Byte) : Bool :=
  decide (ufld e 0 1 ≤ 5 ∧ (ufld e 1 1 = 0 ∨ (ufld e 1 1 = 1 ∧ (ufld e 0 1 = 1 ∨ ufld e 0 1 = 2))) ∧ 1518 ≤ ufld e 2 2 ∧ ufld e 2 2 ≤ 9216
    ∧ ufld e 10 2 < 4096) && zeros (e.drop 32)

/-- The records that no other depends on are as R474 has them. -/
def bodiesOk (rs : List (Nat × List Byte)) : Bool :=
  let ring := bodyOf rs 1
  let dir := bodyOf rs 6
  decide (ufld ring 0 1 ≤ 15 ∧ 2 ≤ ufld ring 1 1 ∧ ufld ring 1 1 ≤ 16) && zeros (bytesAt ring 2 6)
  && (bodyOf rs 2).all (fun b => decide (b.toNat < 16))
  && (entriesOf rs 4 16).all (fun e => decide (ufld e 0 1 ≤ 63) && zeros (bytesAt e 1 3))
  && (entriesOf rs 5 64).all (fun e => zeros (e.drop 58))
  && decide (ufld dir 0 8 % 64 = 0 ∧ ufld dir 8 1 ≤ 12 ∧ 1 ≤ ufld dir 9 1 ∧ ufld dir 9 1 ≤ 15 ∧ ufld dir 16 8 % 64 = 0 ∧ ufld dir 32 8 % 16 = 0
      ∧ 8 ≤ ufld dir 40 1 ∧ ufld dir 40 1 ≤ 16)
  && zeros (bytesAt dir 10 6) && zeros (bytesAt dir 28 4) && zeros (bytesAt dir 41 7)
  && (entriesOf rs 7 40).all queueEntryOk
  && (entriesOf rs 8 4).all (fun e => decide (1 ≤ ufld e 0 2 ∧ 16 ≤ ufld e 2 2))
  && (entriesOf rs 9 64).all portEntryOk
  && (entriesOf rs 10 16).all (fun e => zeros (e.drop 13))
  && (entriesOf rs 11 4).all (fun e => decide (ufld e 2 1 < 32 ∧ ufld e 3 1 = 0))
  && (entriesOf rs 12 16).all (fun e => zeros (bytesAt e 4 4))

/-- A load block (R475). -/
structure Block where
  addr : Nat
  repl : Bool
  data : List Byte
  deriving DecidableEq, Repr

/-- The load blocks of a section (R475). -/
def loadBlocks : Nat → List Byte → Option (List Block)
  | _, [] => some []
  | 0, _ => none
  | n + 1, bs =>
    let len := ufld bs 8 4
    let fl := ufld bs 12 1
    let fill := decide (fl / 2 % 2 = 1)
    let body := if fill then 0 else (len + 7) / 8 * 8
    if bs.length < 16 + body ∨ 4 ≤ fl ∨ ufld bs 14 2 ≠ 0 ∨ (fill = false ∧ zeros (bytesAt bs (16 + len) (body - len)) = false) then none
    else (loadBlocks n (bs.drop (16 + body))).map (fun l =>
      ⟨ufld bs 0 8, decide (fl % 2 = 1), if fill then List.replicate len (BitVec.ofNat 8 (ufld bs 13 1)) else bytesAt bs 16 len⟩ :: l)

/-- The blocks that a block stands for, one for each code store it is written to (R475). -/
def Block.all (b : Block) : List Block :=
  if b.repl then (List.range 32).map (fun c => { b with addr := b.addr + 0x1000000 * c }) else [b]

/-- A block of the record code image, and one of the constant tables, lies where it may (R475); `scratch` is the SCRATCH of a cluster. -/
def Block.codeOk (b : Block) : Bool := decide (Config.codeBase ≤ b.addr ∧ b.addr + b.data.length ≤ Config.codeBase + 0x100000)
def Block.constOk (scratch : Nat → Nat) (b : Block) : Bool :=
  !b.repl && (decide (b.addr + b.data.length ≤ stagingBase) ||
    (let c := (b.addr - Config.storeBase) / 0x1000000
     decide (Config.storeBase ≤ b.addr ∧ c < 32 ∧ b.addr + b.data.length ≤ Config.storeBase + 0x1000000 * c + 0x10000 * scratch c)))

/-- Two ranges of addresses overlap. -/
def overlaps (a b : Nat × Nat) : Bool := decide (a.1 < b.1 + b.2 ∧ b.1 < a.1 + a.2)
def Block.range (b : Block) : Nat × Nat := (b.addr, b.data.length)
/-- No two of the ranges overlap. -/
def disjoint : List (Nat × Nat) → Bool
  | [] => true
  | a :: l => l.all (fun b => !overlaps a b) && disjoint l

/-- The class table (R476). -/
def classesOk (bs : List Byte) : Bool :=
  let es := entries 16 (bs.length / 16) bs
  decide (bs.length % 16 = 0) && es.all (fun e => decide (1 ≤ ufld e 0 2 ∧ ufld e 0 2 ≤ 0xEFF ∧ (ufld e 2 2).testBit 14 = false ∧ (ufld e 2 2).testBit 7 = false
    ∧ ufld e 4 4 % 4 = 0 ∧ ufld e 4 4 < 0x100000) && zeros (e.drop 8))
  && ((es.map (fun e => ufld e 0 2)).zip ((es.map (fun e => ufld e 0 2)).drop 1)).all (fun p => decide (p.1 < p.2))

/-- User calibration (R479, R485), and user repair additions (R479). -/
def calOk (bs : List Byte) : Bool :=
  decide (bs.length % 4 = 0) && (entries 4 (bs.length / 4) bs).all (fun e => decide (ufld e 0 2 < 424))
def repairOk (bs : List Byte) : Bool :=
  (entries 8 (bs.length / 8) bs).all (fun e =>
    let w := ufld e 0 8
    let k := w / 2 ^ 60
    decide ((k = 1 ∧ w % 2 ^ 24 = 0 ∧ w / 2 ^ 41 % 4 = 0) ∨ ((k = 2 ∨ k = 3) ∧ w / 2 ^ 56 % 16 = 0 ∧ w / 2 ^ 16 % 2 ^ 16 = 0)))

/-- The user offset of a calibration item: the later entry governs (R479). -/
def userOffset (bs : List Byte) (i : Nat) : Int :=
  (entries 4 (bs.length / 4) bs).foldl (fun v e => if ufld e 0 2 = i then
    (let u := ufld e 2 2; if u < 2 ^ 15 then (u : Int) else (u : Int) - 2 ^ 16) else v) 0

/-- The ranges that records and load blocks name (R500): the account directory, the shadow pool, the migration log, device queues, blocks. -/
def namedRanges (rs : List (Nat × List Byte)) (bl : List Block) : List (Nat × Nat) :=
  let dir := bodyOf rs 6
  [(ufld dir 0 8, 64 * 65536 * 2 ^ ufld dir 8 1), (ufld dir 16 8, 64 * ufld dir 24 4), (ufld dir 32 8, 16 * 2 ^ ufld dir 40 1)]
  ++ (entriesOf rs 7 40).filterMap (fun e =>
    let x := descOfBytes (e.drop 8)
    if isHostQueue (ufld e 0 2) ∨ x.kind = 0 then none else some (x.base, 2 ^ x.log2 * (if x.kind = 2 then 16 else 64)))
  ++ bl.map Block.range

/-- The Train Register settings (R479, R500). -/
def trainOk (named : List (Nat × Nat)) (bs : List Byte) : Bool :=
  let base := ufld bs 8 8
  let size := ufld bs 16 2 * 2 ^ 30
  decide (bs.length = 32 ∧ ufld bs 0 1 ≤ 1 ∧ base % 2 ^ 30 = 0 ∧ 1 ≤ ufld bs 16 2 ∧ ufld bs 16 2 ≤ 16 ∧ 5 ≤ ufld bs 18 2 ∧ ufld bs 18 2 ≤ 80
    ∧ ufld bs 20 2 < 64 ∧ base + size ≤ stagingBase) && zeros (bytesAt bs 1 3) && zeros (bs.drop 22)
  && named.all (fun r => !overlaps (base, size) r)

/-- The load blocks of an image: the record code image, then the constant tables; none where a block breaks R475. -/
def imageBlocks (img : List Byte) (scratch : Nat → Nat) : Option (List Block) :=
  let part := fun t => let s := (sectOf img t).getD []; loadBlocks s.length s
  match part 4, part 6 with
  | some code, some const =>
    let bl := code.flatMap Block.all ++ const
    if code.all Block.codeOk && const.all (fun b => b.constOk scratch) && disjoint (bl.map Block.range) then some bl else none
  | _, _ => none

end Sys2Proof.Machine
end

