-- ==== Sys2Proof/Machine/Start.lean ====
section
/-! DEFINITION. The start (R481-R484): reading and verifying a slot, loading the Timetable (R474-R479), failure, and the release of the clusters. -/
namespace Sys2Proof.Machine

open Sys2Proof

/-- Milliseconds since the start (R491): CLK_TOD begins at 0 there. DEDUCED, assumption 72. -/
def Dev.startMs (d : Dev) : Nat := sat (2 ^ 32 - 1) (d.now / 1000000)

/-- No slot is accepted, or HBM training fails (R480, R483): PHASE 7, with the code of the slot. DEDUCED, assumption 71. -/
def Dev.startFail (d : Dev) (code : Nat) : Dev :=
  let d := d.setRf rSbxStart (if d.box.slot1 then 48 else 40) 8 code
  let d := ((d.setRf rSbxStart 36 4 7).setRb rSbxStart 35 true).setRf rSbxStart 0 32 d.startMs
  (d.setReg rSbxTtgen 0).withHub (fun _ => Hub.reset)

/-- A slot fails (R483): slot 1 is read after slot 0 where it exists; `ended` is the flash offset at which the image read from slot 0 ended. -/
def Dev.slotFails (d : Dev) (big : Bool) (ended code : Nat) : Dev :=
  let d := d.logBox (.slot d.box.slot1.toNat code)
  if !d.box.slot1 && big && decide (ended ≤ 0x8000000) then (d.setRf rSbxStart 40 8 code).withBox (fun b => { b with slot1 := true })
  else d.startFail code

/-- HBM_TRAINING_DONE (R480, R481): the end of HBMINIT, or the retraining of phase 5. -/
def execHbmTrainingDone (ok : Bool) (s : State) : Host.Outcome State Fault Refusal :=
  onDev s (fun d =>
    if d.box.power ≠ .on then d
    else if d.phase = 1 then (if ok then d.setRf rSbxStart 36 4 2 else d)
    else if d.phase = 5 then
      (if ok then (List.range 4).foldl (fun d h => d.setRb (rHbmStatus h) 0 true) (d.selfRefresh false) else d.startFail 12)
    else d)

/-- IMAGE_SLOT_FAILURE (R480): a check of the reading phase fails before the last byte. -/
def execImageSlotFailure (big : Bool) (len code : Nat) (s : State) : Host.Outcome State Fault Refusal :=
  onDev s (fun d => if d.box.power = .on ∧ d.phase = 2 ∧ code ∈ [1, 2, 3, 6, 11] then d.slotFails big len code else d)

/-- A map from keys 0, 1, … to values, in canonical form, from the list of its values. -/
def mapOf {α : Type} [DecidableEq α] (dflt : α) : Nat → List α → SMap α
  | _, [] => []
  | k, v :: vs => if v = dflt then mapOf dflt (k + 1) vs else (k, v) :: mapOf dflt (k + 1) vs

/-- A thread's start values (R474, THREADS); reserved bits of SENTRY, EDTB and TSBR are 0 (R275, R279, R284). -/
def tstartOf (e : List Byte) : TStart :=
  let w := fun o => word (ufld e o 8)
  let wr := fun k => WorldRegs.mk (w (8 * k) &&& 0x7FFFFFFFFFFFFC#64) (w (16 + 8 * k) &&& 0xFFFFFFFFE000#64) (w (32 + 8 * k) &&& 0xFFFFFFFFFE00#64)
  ⟨wr 0, wr 1, w 48, word (ufld e 56 2)⟩

/-- A port's settings (R474, PORTS), little-endian as every field of the image (R7, R470). DEDUCED, assumption 69. -/
def portOf (e : List Byte) : PortCfg :=
  ⟨ufld e 0 1, ufld e 1 1, ufld e 2 2, ufld e 4 6, ufld e 10 2, ufld e 12 4, ufld e 16 16⟩

/-- The tracks as the ownership map gives them (R82, R366), with their pins (R109): none is owned before the device is a member. -/
def tracksOf (owners : List Byte) : SMap Track :=
  mapOf Track.reset 0 (owners.map (fun b => { Track.reset with owner := b.toNat % 16, home0 := b.toNat % 16 }))
def Dev.loadPin (d : Dev) (e : List Byte) : Dev :=
  d.setTrack (ufld e 0 2) { d.track (ufld e 0 2) with pin := some (ufld e 2 1) }

/-- The key bytes of consecutive frames from address `a` (R305-R307); none where a frame is not populated. -/
def Dev.loadKeys (d : Dev) (byte : Byte) : Nat → Nat → Option Dev
  | 0, _ => some d
  | n + 1, a =>
    match d.keyAddr a with
    | none => none
    | some k => (d.setByte k byte).loadKeys byte n (a + (if a < Config.hbmEnd then 0x4000 else 0x1000))

/-- A KEYS entry (R474). -/
def Dev.keyEntry (d : Dev) (e : List Byte) : Option Dev :=
  let a := ufld e 0 8
  if a % (if a < Config.hbmEnd then 0x4000 else 0x1000) = 0 then d.loadKeys (BitVec.ofNat 8 (ufld e 12 1)) (ufld e 8 4) a else none

/-- A REGSET entry (R474): a write by the Signal Box, its epoch-applied fields applied at once; none where the entry makes the section invalid.
DEDUCED, assumption 68. -/
def Dev.regset (d : Dev) (e : List Byte) : Option Dev :=
  let o := ufld e 0 4
  let slot := o / 4096
  let r := (placeOf o).reg
  if 64 ≤ slot ∨ (28 ≤ slot ∧ slot < 32) ∨ o % 8 ≠ 0 then none
  else if isRwi r || (complementOf r).isSome || (decide (classMask r .wo ≠ 0) && decide (r ≠ rCfgSwi)) then none
  else if d.rb rCfgLock slot && decide (classMask r .rwl ≠ 0) then none
  else
    let d' := (d.ctrlWrite .box o true (word (ufld e 8 8))).applyRwe
    if (r = rCfgIrtData ∧ d'.rb rCfgIrtSel 63 = true) ∨ (r = rJnlQdata ∧ d'.rb rJnlQsel 63 = true)
        ∨ (r = rYrdForbid ∧ d'.rb rYrdErr 1 = true) then none
    else some d'

/-- Each entry in turn; none where one is invalid. -/
def Dev.each (f : Dev → List Byte → Option Dev) : Dev → List (List Byte) → Option Dev
  | d, [] => some d
  | d, e :: es => match f d e with | some d => Dev.each f d es | none => none

/-- A user repair addition (R422): `used` are the banks in which the earlier ones of this image have taken a spare. DESIGN CHOICE, assumption 70. -/
def Dev.repair (st : Dev × List Nat) (e : List Byte) : Dev × List Nat :=
  let w := ufld e 0 8
  let kind := w / 2 ^ 60
  let bank := if kind = 1 then w / 2 ^ 43 else w / 2 ^ 32
  let spares := if kind = 1 then 1 else if kind = 2 then 4 else 2
  if Config.repairFused w || decide (spares ≤ Config.sparesUsed bank + (st.2.filter (fun b => b == bank)).length) then
    ((st.1.setRb rMicStatus 5 true).logBox (.repairSkip w), st.2)
  else
    (if kind = 1 then st.1.count (rHbmStatus (w / 2 ^ 58 % 4)) 24 8 else st.1, st.2 ++ [bank])

/-- Region base and size as one number. -/
def regionOf (bs : List Byte) : Nat := ufld bs 8 8 * 32 + ufld bs 16 2

/-- The Train Register's settings (R479, R500, R506, R513, R514): a frozen window is kept where the region is the same and ENABLE is 1. -/
def Dev.loadTrain (d : Dev) (bs : List Byte) : Dev :=
  let on := decide (ufld bs 0 1 = 1)
  let d := (((d.setRb rTrgCtl 3 on).setRf rTrgCtl 32 32 (ufld bs 4 4)).setRf rTrgCtl 20 6 (ufld bs 20 2))
  let d := ((d.setRf rTrgWin 30 18 (ufld bs 8 8 / 2 ^ 30)).setRf rTrgWin 16 5 (ufld bs 16 2)).setRf rTrgWin 0 7 (ufld bs 18 2)
  match d.trg.frozen with
  | some f =>
    if on && decide (d.trg.region = regionOf bs) then
      (((d.setTrgState 2).setRf rTrgStatus 20 4 f.trig.code).setRf rTrgStatus 24 8 f.trig.cluster).setRf rTrgStatus 32 8 f.trig.localId
    else d.withTrg (fun _ => { Trg.reset with region := regionOf bs })
  | none => d.withTrg (fun t => { t with region := regionOf bs })

/-- The control stores and their digests (R477, R489). -/
def Dev.loadPatches (d : Dev) (img : List Byte) : Dev :=
  let core := sectOf img 2
  let hub := sectOf img 3
  let cp := match core with
    | some p => (patchDigest p, (corePatch p).getD [])
    | none => (shake256 (padTo 65536 Config.romCore), padTo 65536 Config.romCore)
  let hp := match hub with
    | some p => (patchDigest p, bytesAt p 64 65536, ufld p 28 2)
    | none => (shake256 (padTo 65536 Config.romHub), padTo 65536 Config.romHub, 2)
  let d := { d with tt := { d.tt with cpDigest := cp.1, clpDigest := hp.1, fmtread := hp.2.2 } }
  let d := d.withBox (fun b => { b with coreCode := cp.2, hubCode := hp.2.1 })
  (d.setRb rSbxStart 33 core.isSome).setRb rSbxStart 32 hub.isSome

/-- The device configuration (R474) but for the records whose entries can be invalid only against the device's registers and frames. -/
def Dev.loadConfig (d : Dev) (img : List Byte) (rs : List (Nat × List Byte)) : Dev :=
  let ring := bodyOf rs 1
  let dir := bodyOf rs 6
  let clusters := entriesOf rs 4 16
  let cs := (sectOf img 5).getD []
  let tt : Tt := { d.tt with
    ringId := ufld ring 0 1
    n := ufld ring 1 1
    ringname := ufld ring 8 8
    hashKey := bodyOf rs 3
    pools := mapOf 0 0 (clusters.map (fun e => ufld e 4 12))
    threads := mapOf TStart.reset 0 ((entriesOf rs 5 64).map tstartOf)
    poolBase := ufld dir 16 8
    poolLines := ufld dir 24 4
    logBase := ufld dir 32 8
    logSize := ufld dir 40 1
    sources := (entriesOf rs 8 4).foldl (fun m e => SMap.set (fun _ => 0) m (ufld e 0 2) (ufld e 2 2)) []
    ports := mapOf PortCfg.reset 0 ((entriesOf rs 9 64).map portOf)
    classes := (entries 16 (cs.length / 16) cs).foldl (fun m e => SMap.set (fun _ => (0, 0)) m (ufld e 0 2) (ufld e 2 2, ufld e 4 4)) []
    digest := imgDigest img
    gen := ufld img 16 8 }
  let d := { d with tt := tt, yard := { Yard.reset with tracks := tracksOf (bodyOf rs 2) } }
  let d := (entriesOf rs 11 4).foldl Dev.loadPin d
  let d := (entriesOf rs 7 40).foldl (fun d e => d.setQueue (ufld e 0 2) { descOfBytes (e.drop 8) with qerr := false }) d
  let d := ((d.setRf rPeDir 6 42 (ufld dir 0 8 / 64)).setRf rPeDir 56 4 (ufld dir 8 1)).setRf rPeDir 60 4 (ufld dir 9 1)
  let d := d.setRf rYrdLog 32 5 (ufld dir 40 1)
  let d := (List.range 32).foldl (fun d c =>
    let n := ufld (clusters.getD c []) 0 1
    (d.setRf (rClSplit c) 0 6 n).setRf (rClSplit c) 8 14 ((0x3FB000 - 0x10000 * n) / 0x400)) d
  (List.range 8).foldl (fun d p => d.setRf (rEthStatus p) 0 3 (d.portCfg p).mode) d

/-- The sections of an image that has passed checks 1-10, loaded (R481 phases 4 and 5); none where a record, block or entry breaks
R474-R476 or R479 (check 11). -/
def Dev.loadImage (d : Dev) (img : List Byte) : Option Dev :=
  let cfg := (sectOf img 1).getD []
  let cal := (sectOf img 7).getD []
  let rep := (sectOf img 8).getD []
  match cfgRecs cfg.length cfg with
  | none => none
  | some rs =>
    let scratch := fun c => ufld ((entriesOf rs 4 16).getD c []) 0 1
    if !(recsOk rs && bodiesOk rs && classesOk ((sectOf img 5).getD []) && calOk cal && repairOk rep) then none
    else match imageBlocks img scratch with
      | none => none
      | some bl =>
        let train := sectOf img 9
        if (match train with | some t => trainOk (namedRanges rs bl) t | none => true) = false then none
        else
          let d := (d.loadConfig img rs).loadPatches img
          let d := bl.foldl (fun d b => d.writeBytes b.addr (clean b.data)) d
          let d := (entries 8 (rep.length / 8) rep).foldl Dev.repair (d, []) |>.1
          let d := d.loadTrain (train.getD (padTo 32 []))
          match Dev.each Dev.keyEntry d (entriesOf rs 10 16) with
          | none => none
          | some d => (Dev.each Dev.regset d (entriesOf rs 12 16)).map (fun d => d.calibrate (userOffset cal))

/-- The image is accepted (R478, R481, R484, R491): the fuse floor, SBX_START, the staging region zeroed, HBM held in self-refresh, PHASE 5.
DEDUCED, assumption 73. -/
def Dev.accept (d : Dev) (img : List Byte) : Dev :=
  let raise := decide (ufld img 28 4 = 1) && decide (d.svFloor < imgSvn img)
  let d := if raise then d.withBox (fun b => { b with floor := Nat.min 64 (imgSvn img) }) else d
  let d := (d.zeroRange stagingBase Config.hbmEnd)
  let d := ((d.setRf rSbxStart 36 4 5).setRb rSbxStart 35 true).setRb rSbxStart 34 d.box.slot1
  (d.setReg rSbxTtgen (word d.tt.gen)).selfRefresh true

/-- IMAGE_READ_DONE (R480, R481): the checks in order, and the load. -/
def execImageReadDone (big : Bool) (img : List Byte) (s : State) : Host.Outcome State Fault Refusal :=
  onDev s (fun d =>
    if d.box.power ≠ .on ∨ d.phase ≠ 2 then d
    else match imageError d.svFloor img with
      | some e => d.slotFails big img.length e
      | none =>
        let img := img.take (imgSize img)
        match d.loadImage img with
        | none => d.slotFails big img.length 10
        | some e => e.accept img)

/-- Every cluster is released (R481 phase 6): threads as R124 has them, CCC 0 (R494). -/
def Dev.releaseClusters (d : Dev) : Dev :=
  (List.range Config.clusters).foldl (fun d c => (d.freshThreads false c).setCluster c { Cluster.reset with released := true }) d

/-- Capture is armed as the clusters are released, where ENABLE is 1 and no frozen window is kept (R497, R506). -/
def Dev.armAtRelease (d : Dev) : Dev :=
  if d.rb rTrgCtl 3 && d.trg.frozen.isNone then
    let d := (d.withTrg (fun t => { t with arm := true })).armCapture
    (clustersOf d.trg.clusters).foldl (fun d c => (d.takeCkpt c false).setCluster c { (d.takeCkpt c false).cluster c with held := false }) d
  else d

/-- CLUSTER_RELEASE (R481, R482, R491): phase 5 ends with HBM trained. -/
def execClusterRelease (s : State) : Host.Outcome State Fault Refusal :=
  onDev s (fun d =>
    if d.box.power ≠ .on ∨ d.phase ≠ 5 then d
    else
      let d := (List.range 4).foldl (fun d h => d.setRb (rHbmStatus h) 0 true) (d.selfRefresh false)
      let d := (d.setRf rSbxStart 36 4 6).setRf rSbxStart 0 32 d.startMs
      let d := (d.withBox (fun b => { b with startTod := d.now })).releaseClusters
      d.enterJoining.armAtRelease)

end Sys2Proof.Machine
end

