-- ==== Sys2Proof/Machine/Clock.lean ====
section
/-! DEFINITION. The clocks that run whatever is commanded: CLK_TOD (R523) and the cycle counts of the clusters (R494). -/
namespace Sys2Proof.Machine

open Sys2Proof

/-- Tenths of a core cycle in one fabric cycle of 1.5 GHz (R519, R521), by the core step in force. -/
def coreTenths (step : Nat) : Nat := if step = 0 then 20 else if step = 1 then 16 else if step = 2 then 10 else 5

/-- The cycle count of every cluster that is released and does not nap goes on (R494, R535). -/
def Dev.cycle (d : Dev) : Dev :=
  (List.range Config.clusters).foldl (fun d c =>
    if d.clusterLive c then d.setCluster c { d.cluster c with ccc := (d.cluster c).ccc + coreTenths (d.rf rPwrStatus 0 2) } else d) d

/-- What a step does on an empty queue: one fabric cycle passes. DESIGN CHOICE, assumption 2. -/
def idleTick (s : State) : State :=
  if s.dev.box.power = .on then { s with dev := { s.dev with tod := s.dev.tod + s.dev.fabricStep }.cycle } else s

end Sys2Proof.Machine
end

