-- ==== Sys2Proof/Machine/Branch.lean ====
section
/-! DEFINITION. Branches and window calls (R135-R137, R259, R260). -/
namespace Sys2Proof.Machine

open Sys2Proof

/-- The target of a relative transfer: PC + 4 × the signed displacement (R255). -/
def relTarget {n : Nat} (pc : Word) (disp : BitVec n) : Word := pc + (disp.signExtend 64 <<< 2)

/-- A target from a register: bits [1:0] taken as 0 (R253). -/
def regTarget (w : Word) : Word := w &&& ~~~3#64

/-- BC (R259, R260): NEVER is ILLEGAL, code 4; a poisoned FL is consumed by every condition but ALW (R171). -/
def execBc (g : Nat) (cond : BitVec 4) (disp : BitVec 22) (s : State) : Host.Outcome State Fault Refusal :=
  runThread g s [] (decide (cond ≠ 15)) (fun c =>
    if cond = 0 then illegal c 4 0x20
    else if c.t.fl.poison ∧ cond ≠ 15 then machineCheck c 2
    else if condHolds cond.toNat c.t.nzcv then .ok (.jump c (relTarget c.t.pc disp) true)
    else seq4 c)

/-- BR (R259). -/
def execBr (g : Nat) (disp : BitVec 26) (s : State) : Host.Outcome State Fault Refusal :=
  runThread g s [] false (fun c => .ok (.jump c (relTarget c.t.pc disp) true))

/-- JMPR (R259): a poisoned register is consumed as an address. -/
def execJmpr (g : Nat) (ra : GReg) (s : State) : Host.Outcome State Fault Refusal :=
  runThread g s [ra] false (fun c =>
    match c.base ra with
    | .error e => .error e
    | .ok b => .ok (.jump c (regTarget b) true))

/-- The call of CALLW and CALLWR (R135): WINDOW DEPTH at WD 11, with nothing changed. -/
def callTo (target : Word) (c : Ctx) : Run Out :=
  if c.t.wd = 11 then raise c 10 1
  else
    let t := c.t.physSet (c.t.p7 1) ⟨c.t.pc + 4, false⟩
    .ok (.jump (c.withT { t with wsel := (t.wsel + 1) % 12, wd := t.wd + 1 }) target true)

/-- CALLW (R135). It writes Q7, and waits for a posting result that is outstanding for it (R125). -/
def execCallw (g : Nat) (disp : BitVec 26) (s : State) : Host.Outcome State Fault Refusal :=
  runThread g s [31] false (fun c => callTo (relTarget c.t.pc disp) c)

/-- CALLWR (R135): the target register is consumed as an address before the window changes (R136). -/
def execCallwr (g : Nat) (ra : GReg) (s : State) : Host.Outcome State Fault Refusal :=
  runThread g s [ra, 31] false (fun c =>
    match c.base ra with
    | .error e => .error e
    | .ok b => callTo (regTarget b) c)

/-- RETW (R136): through P7 of the current window, for which it waits while a posting result is outstanding for it (R125, R336); a poisoned
P7 is consumed as an address. -/
def execRetw (g : Nat) (s : State) : Host.Outcome State Fault Refusal :=
  runThread g s [] false (fun c =>
    let p7 := c.t.physGet (c.t.p7 0)
    if c.t.posts.any (fun p => p.dest == c.t.p7 0) then .error .wait
    else if p7.poison then machineCheck c 1
    else if c.t.wd = 0 then raise c 10 2
    else .ok (.jump (c.withT { c.t with wsel := (c.t.wsel + 11) % 12, wd := c.t.wd - 1 }) (regTarget p7.val) true))

end Sys2Proof.Machine
end

