-- ==== Sys2Proof/Machine/Integer.lean ====
section
/-! DEFINITION. The integer instructions (R223-R228): register forms, multiply and divide, immediate forms. -/
namespace Sys2Proof.Machine

open Sys2Proof

/-- An integer operation on two sources (R225, R251): a poisoned source marks rd and poisons FL. `f` takes the sources and the
carry flag. -/
def alu (rd : GReg) (a b : Reg) (carry : Bool) (f : Word → Word → Bool → AluOut) (c : Ctx) : Run Out :=
  if a.poison || b.poison || (carry && c.t.fl.poison) then seq4 (c.poisonR rd).poisonFl
  else
    let o := f a.val b.val c.t.nzcv.c
    seq4 ((c.setR rd ⟨o.val, false⟩).setFlags o.flags)

/-- A register form with operation `f` (R223). `carry`: it reads C. -/
def aluReg (g : Nat) (rd ra rb : GReg) (carry : Bool) (f : Word → Word → Bool → AluOut) (s : State) :
    Host.Outcome State Fault Refusal :=
  runThread g s [rd, ra, rb] true (fun c => alu rd (c.r ra) (c.r rb) carry f c)

/-- An immediate form with operation `f` and immediate `imm` (R224). -/
def aluImm (g : Nat) (rd ra : GReg) (imm : Word) (f : Word → Word → Bool → AluOut) (s : State) :
    Host.Outcome State Fault Refusal :=
  runThread g s [rd, ra] true (fun c => alu rd (c.r ra) ⟨imm, false⟩ false f c)

/-- ADD (R223). -/
def execAdd (g : Nat) (rd ra rb : GReg) (s : State) : Host.Outcome State Fault Refusal :=
  aluReg g rd ra rb false (fun a b _ => addC a b false) s
/-- ADC (R223). -/
def execAdc (g : Nat) (rd ra rb : GReg) (s : State) : Host.Outcome State Fault Refusal :=
  aluReg g rd ra rb true addC s
/-- SUB (R223). -/
def execSub (g : Nat) (rd ra rb : GReg) (s : State) : Host.Outcome State Fault Refusal :=
  aluReg g rd ra rb false (fun a b _ => subC a b true) s
/-- SBC (R223). -/
def execSbc (g : Nat) (rd ra rb : GReg) (s : State) : Host.Outcome State Fault Refusal :=
  aluReg g rd ra rb true subC s
/-- AND (R223). -/
def execAnd (g : Nat) (rd ra rb : GReg) (s : State) : Host.Outcome State Fault Refusal :=
  aluReg g rd ra rb false (fun a b _ => logic (a &&& b)) s
/-- OR (R223). -/
def execOr (g : Nat) (rd ra rb : GReg) (s : State) : Host.Outcome State Fault Refusal :=
  aluReg g rd ra rb false (fun a b _ => logic (a ||| b)) s
/-- XOR (R223). -/
def execXor (g : Nat) (rd ra rb : GReg) (s : State) : Host.Outcome State Fault Refusal :=
  aluReg g rd ra rb false (fun a b _ => logic (a ^^^ b)) s
/-- ANDN (R223). -/
def execAndn (g : Nat) (rd ra rb : GReg) (s : State) : Host.Outcome State Fault Refusal :=
  aluReg g rd ra rb false (fun a b _ => logic (a &&& ~~~b)) s
/-- SHL (R223). -/
def execShl (g : Nat) (rd ra rb : GReg) (s : State) : Host.Outcome State Fault Refusal :=
  aluReg g rd ra rb false (fun a b _ => shiftOp 0 a (b.toNat % 64)) s
/-- SHR (R223). -/
def execShr (g : Nat) (rd ra rb : GReg) (s : State) : Host.Outcome State Fault Refusal :=
  aluReg g rd ra rb false (fun a b _ => shiftOp 1 a (b.toNat % 64)) s
/-- SAR (R223). -/
def execSar (g : Nat) (rd ra rb : GReg) (s : State) : Host.Outcome State Fault Refusal :=
  aluReg g rd ra rb false (fun a b _ => shiftOp 2 a (b.toNat % 64)) s
/-- MUL (R226). -/
def execMul (g : Nat) (rd ra rb : GReg) (s : State) : Host.Outcome State Fault Refusal :=
  aluReg g rd ra rb false (fun a b _ => mulLow a b) s
/-- MULH (R226). -/
def execMulh (g : Nat) (rd ra rb : GReg) (s : State) : Host.Outcome State Fault Refusal :=
  aluReg g rd ra rb false (fun a b _ => mulHigh a b) s
/-- MULHU (R226). -/
def execMulhu (g : Nat) (rd ra rb : GReg) (s : State) : Host.Outcome State Fault Refusal :=
  aluReg g rd ra rb false (fun a b _ => mulHighU a b) s

/-- A division (R227): ILLEGAL, code 2, for rd = rr ≠ 0; a poisoned source marks every destination (R251). -/
def divide (rd ra rb rr : GReg) (f : Word → Word → DivOut) (c : Ctx) : Run Out :=
  if rd = rr ∧ rd ≠ 0 then illegal c 2 0x01
  else
    let a := c.r ra
    let b := c.r rb
    if a.poison || b.poison then seq4 ((c.poisonR rd).poisonR rr).poisonFl
    else
      let o := f a.val b.val
      seq4 (((c.setR rd ⟨o.q, false⟩).setR rr ⟨o.r, false⟩).setFlags ⟨o.q.msb, decide (o.q = 0), false, o.v⟩)

/-- DIV (R227). -/
def execDiv (g : Nat) (rd ra rb rr : GReg) (s : State) : Host.Outcome State Fault Refusal :=
  runThread g s [rd, ra, rb, rr] true (divide rd ra rb rr divS)
/-- DIVU (R227). -/
def execDivu (g : Nat) (rd ra rb rr : GReg) (s : State) : Host.Outcome State Fault Refusal :=
  runThread g s [rd, ra, rb, rr] true (divide rd ra rb rr divUn)

/-- ADDI (R224): the immediate is sign-extended. -/
def execAddi (g : Nat) (rd ra : GReg) (imm : BitVec 16) (s : State) : Host.Outcome State Fault Refusal :=
  aluImm g rd ra (imm.signExtend 64) (fun a b _ => addC a b false) s
/-- SUBI (R224): the immediate is sign-extended. -/
def execSubi (g : Nat) (rd ra : GReg) (imm : BitVec 16) (s : State) : Host.Outcome State Fault Refusal :=
  aluImm g rd ra (imm.signExtend 64) (fun a b _ => subC a b true) s
/-- ANDI (R224): the immediate is zero-extended. -/
def execAndi (g : Nat) (rd ra : GReg) (imm : BitVec 16) (s : State) : Host.Outcome State Fault Refusal :=
  aluImm g rd ra (imm.setWidth 64) (fun a b _ => logic (a &&& b)) s
/-- ORI (R224): the immediate is zero-extended. -/
def execOri (g : Nat) (rd ra : GReg) (imm : BitVec 16) (s : State) : Host.Outcome State Fault Refusal :=
  aluImm g rd ra (imm.setWidth 64) (fun a b _ => logic (a ||| b)) s
/-- XORI (R224): the immediate is zero-extended. -/
def execXori (g : Nat) (rd ra : GReg) (imm : BitVec 16) (s : State) : Host.Outcome State Fault Refusal :=
  aluImm g rd ra (imm.setWidth 64) (fun a b _ => logic (a ^^^ b)) s

/-- MOVK (R224): one halfword of rd replaced; FL unchanged (R225); a mark on rd, a source, stays on it (R251). DEDUCED, assumption 96. -/
def execMovk (g : Nat) (rd : GReg) (hw : BitVec 2) (imm : BitVec 16) (s : State) : Host.Outcome State Fault Refusal :=
  runThread g s [rd] false (fun c =>
    let v := c.r rd
    if v.poison then seq4 (c.poisonR rd)
    else seq4 (c.setR rd ⟨setFld v.val (16 * hw.toNat) 16 imm.toNat, false⟩))

/-- SHI (R224): kind 3 is ILLEGAL, code 2. -/
def execShi (g : Nat) (rd ra : GReg) (kind : BitVec 2) (amt : BitVec 6) (s : State) : Host.Outcome State Fault Refusal :=
  runThread g s [rd, ra] true (fun c =>
    if kind = 3 then illegal c 2 0x08
    else alu rd (c.r ra) ⟨amt.setWidth 64, false⟩ false (fun a b _ => shiftOp kind.toNat a b.toNat) c)

end Sys2Proof.Machine
end

