-- ==== Sys2Proof/Machine/LoadStore.lean ====
section
/-! DEFINITION. Integer and floating loads and stores (R235, R257), and a thread's accesses to control space (R321, R322, R434, R444). -/
namespace Sys2Proof.Machine

open Sys2Proof

/-- The checks of a control-space access that come before its own (R321, R322): it waits for the store buffer; it must be 4 or 8 bytes and
aligned, in the bit-alias region 4; and supervisor level with key 0. `code`: 1 load, 2 store. -/
def Ctx.ctrlCheck (c : Ctx) (code a n : Nat) : Run Unit :=
  if !c.t.sb.isEmpty then .error .wait
  else if a < Config.ctlBase ∨ ¬ (n = 4 ∨ n = 8) ∨ a % n ≠ 0 ∨ (Config.aliasBase ≤ a ∧ n ≠ 4) then raise c 5 code a
  else if !c.t.sup || decide (c.t.key ≠ 0) then refusal c code a .window
  else .ok ()

/-- In a replay a control-space access waits for its recorded response (R495, R511): the response, and the context without it. -/
def Ctx.takeResp (c : Ctx) (a : Nat) (write : Bool) : Option (CapRec × Ctx) :=
  let rs := c.d.trg.replay.resp
  let ok := fun (r : CapRec) => decide (r.loc = localOf c.g ∧ r.addr = a % 2 ^ 48) && (decide (r.sub ≠ 0) == write)
  match rs.find? ok with
  | none => none
  | some r => some (r, c.withD (c.d.withReplay (fun x => { x with resp := x.resp.erase r })))

/-- The record of a control-space response (R495). -/
def Ctx.noteCtrl (c : Ctx) (sub a : Nat) (v : Word) : Ctx :=
  c.withD (c.d.capture (clusterOf c.g) 5 (localOf c.g) sub a (leBytes 8 v.toNat ++ leBytes 8 0))

/-- The bits of a critical word that a control-space read returns (R410): CFG_BWUP and CFG_BWDN, whose bits 12 and 28-31 are wired to 0
(R442, R454), and the key store base (R314). DESIGN CHOICE, assumption 95. -/
def criticalBits (o : Nat) : Word :=
  if o = rCfgBwup ∨ o = rCfgBwdn then ~~~0xF0001000#64 else if o = rKeyWbase then 0xFFFFFFFFFFFF#64 else 0

/-- The bits of copy `k` of the critical word at `o` that upsets have flipped: `sym` counts 64 for each copy. -/
def copyFlips (o k : Nat) (ups : List Upset) : Word :=
  (List.range 64).foldl (fun w i =>
    if bit (criticalBits o) i && ups.any (fun u => u.addr == Config.ctlBase + o && u.sym == 64 * k + i) then setBit w i true else w) 0

/-- The three copies of a critical word all differ (R410): the device enters OUT, the event is logged, ALERT_N is driven and the device is held
until a start. What the word then reads as is a free value. -/
def Dev.criticalFail (d : Dev) (o : Nat) : Dev :=
  let d := (d.setReg o ((d.reg o &&& ~~~criticalBits o) ||| (d.draw.1 &&& criticalBits o))).draw.2.enterOut
  (d.logBox (.criticalWord o)).withBox (fun b => { b with wordHeld := true })

/-- The vote of a read of the critical word at `o`, whose copies carry the upsets `ups` (R410, R442): two copies that agree rewrite the third,
which TMRFIX counts. -/
def Dev.vote (d : Dev) (o : Nat) (ups : List Upset) : Dev :=
  let f := fun k => copyFlips o k ups
  let won := fun w => d.setReg o (d.reg o ^^^ w)
  if criticalBits o = 0 then d
  else if f 0 = f 1 then (if f 0 = f 2 then won (f 0) else (won (f 0)).count rMicStatus 8 16)
  else if f 0 = f 2 then (won (f 0)).count rMicStatus 8 16
  else if f 1 = f 2 then (won (f 1)).count rMicStatus 8 16
  else d.criticalFail o

/-- The live register that a control-space or alias read reaches; a mirror holds plain copies and does not vote (R410, R430, R444). -/
def Dev.voteAt (d : Dev) (a : Nat) (ups : List Upset) : Dev :=
  let p := if a < Config.aliasBase then placeOf (a - Config.ctlBase) else placeOf ((a - Config.aliasBase) / 256 * 8)
  if p.mirror || p.window then d else d.vote p.reg ups

/-- A thread's read of control space or of an alias word (R433, R444), after the vote of a critical word (R410). -/
def Ctx.ctrlLoad (c : Ctx) (a n : Nat) (ups : List Upset) : Run (Word × Ctx) :=
  match c.ctrlCheck 1 a n with
  | .error e => .error e
  | .ok _ =>
    if c.d.trg.replay.inside then
      match c.takeResp a false with
      | none => .error .wait
      | some (r, c) => .ok (word (ofLe (r.payload.take 8)), c)
    else
      let d := c.d.voteAt a ups
      let r := if a < Config.aliasBase then d.ctrlRead (a - Config.ctlBase) (decide (n = 8)) else d.aliasRead (a - Config.aliasBase)
      .ok (r.1, (c.withD r.2).noteCtrl 0 a r.1)

/-- The block slot that a control-space or alias address reaches (R430, R444). -/
def ctrlSlot (a : Nat) : Nat :=
  if a < Config.aliasBase then (placeOf (a - Config.ctlBase)).slot else (placeOf ((a - Config.aliasBase) / 256 * 8)).slot

/-- A thread's write of control space or of an alias word (R321, R434, R435): a poisoned value is consumed; a write that its world may not
make raises KEY and is recorded; an accepted write completes with its instruction, and then the register acts. DEDUCED, assumption 80. -/
def Ctx.ctrlStore (c : Ctx) (a n : Nat) (v : Reg) : Run Out :=
  match c.ctrlCheck 2 a n with
  | .error e => .error e
  | .ok _ =>
    if v.poison then machineCheck c 4 a
    else if c.d.trg.replay.inside then
      match c.takeResp a true with
      | none => .error .wait
      | some (r, c) => if r.sub = 2 then refusal c 2 a .window else seq4 c
    else if !c.d.mayWrite (.thread c.g) (ctrlSlot a) then
      let reg := if a < Config.aliasBase then (placeOf (a - Config.ctlBase)).reg else (placeOf ((a - Config.aliasBase) / 256 * 8)).reg
      refusal ((c.withD (c.d.lockViol (.thread c.g) reg)).noteCtrl 2 a v.val) 2 a .window
    else
      let c := c.noteCtrl 1 a v.val
      let d := (c.withT (c.t.retire (c.t.pc + 4))).commit
      let d := if a < Config.aliasBase then d.ctrlWrite (.thread c.g) (a - Config.ctlBase) (decide (n = 8)) v.val
        else d.aliasWrite (.thread c.g) (a - Config.aliasBase) v.val
      .ok (.stay ((c.withD d).withT (d.thread c.g)))

/-- The upsets that a read of `n` bytes at `a` finds (R404, R408): in the words it reads, and in HBM lines that no store holds. -/
def Dev.foundUpsets (d : Dev) (a n : Nat) (ups : List Upset) : Dev :=
  d.addUpsets (ups.filter (fun u =>
    if a < Config.hbmEnd then decide (a / 64 ≤ u.addr / 64 ∧ u.addr / 64 ≤ (a + n - 1) / 64) && !d.cachedAny (u.addr / 64)
    else decide (Config.hbmEnd ≤ u.addr ∧ a / 8 ≤ u.addr / 8 ∧ u.addr / 8 ≤ (a + n - 1) / 8)))

/-- A value of `n` bytes extended to 64 bits (R257). -/
def extendLoad (n : Nat) (signed : Bool) (v : Word) : Word :=
  if signed && bit v (8 * n - 1) then v ||| ~~~word (2 ^ (8 * n) - 1) else v

/-- LD (R257): LDB, LDBS, LDH, LDHS, LDW, LDWS, LDD. `ups`: upsets that the read finds, in memory or in the copies of a critical
word (R410). -/
def execLd (g : Nat) (r ra : GReg) (sz : BitVec 2) (x : Bool) (disp : BitVec 12) (ups : List Upset) (s : State) :
    Host.Outcome State Fault Refusal :=
  runThread g s [r, ra] false (fun c =>
    let n := sizeOf2 sz
    if x && decide (sz = 3) then illegal c 2 0x10
    else match c.baseDisp ra disp with
      | .error e => .error e
      | .ok a =>
        if inControl a n then
          match c.ctrlLoad a n ups with
          | .error e => .error e
          | .ok (v, c) => seq4 (c.setR r ⟨extendLoad n x v, false⟩)
        else match c.check .load a n with
          | .error e => .error e
          | .ok c => match (c.withD (c.d.foundUpsets a n ups)).fetchBytes a n with
            | .error e => .error e
            | .ok (bs, c) =>
              let v := regOfBytes bs
              seq4 (c.setR r ⟨extendLoad n x v.val, v.poison⟩))

/-- ST (R257): STB, STH, STW, STD. -/
def execSt (g : Nat) (r ra : GReg) (sz : BitVec 2) (x : Bool) (disp : BitVec 12) (s : State) : Host.Outcome State Fault Refusal :=
  runThread g s [r, ra] false (fun c =>
    let n := sizeOf2 sz
    if x then illegal c 2 0x10
    else match c.baseDisp ra disp with
      | .error e => .error e
      | .ok a =>
        if inControl a n then c.ctrlStore a n (c.r r)
        else match c.store a (regBytes n (c.r r)) with
          | .error e => .error e
          | .ok c => seq4 c)

/-- FLD (R235). -/
def execFld (g : Nat) (f : FReg) (sz : BitVec 2) (ra : GReg) (disp : BitVec 14) (s : State) : Host.Outcome State Fault Refusal :=
  runThread g s [ra] false (fun c =>
    let n := 4 * sizeOf2 sz
    if decide (sz = 3) || (decide (sz = 2) && decide (f.toNat % 2 = 1)) then illegal c 2 0x38
    else match c.baseDisp ra disp with
      | .error e => .error e
      | .ok a =>
        if inControl a n && decide (n ≤ 8) then
          match c.ctrlLoad a n [] with
          | .error e => .error e
          | .ok (v, c) => seq4 (c.withT (c.t.setFreg f ⟨v, false⟩))
        else match c.load a n with
          | .error e => .error e
          | .ok (bs, c) =>
            let t := c.t.setFreg f (regOfBytes (bs.take 8))
            seq4 (c.withT (if n = 16 then t.setFreg (oddOf f) (regOfBytes (bs.drop 8)) else t)))

/-- FST (R235). -/
def execFst (g : Nat) (f : FReg) (sz : BitVec 2) (ra : GReg) (disp : BitVec 14) (s : State) : Host.Outcome State Fault Refusal :=
  runThread g s [ra] false (fun c =>
    let n := 4 * sizeOf2 sz
    if decide (sz = 3) || (decide (sz = 2) && decide (f.toNat % 2 = 1)) then illegal c 2 0x38
    else match c.baseDisp ra disp with
      | .error e => .error e
      | .ok a =>
        if inControl a n && decide (n ≤ 8) then c.ctrlStore a n (c.t.freg f)
        else
          let bs := if n = 16 then regBytes 8 (c.t.freg f) ++ regBytes 8 (c.t.freg (oddOf f)) else regBytes n (c.t.freg f)
          match c.store a bs with
          | .error e => .error e
          | .ok c => seq4 c)

end Sys2Proof.Machine
end

