-- ==== Sys2Proof/Machine/Strings.lean ====
section
/-! DEFINITION. Strings and editing (chapter 6): the whole-string forms, the element forms, and the REP pair (R149-R151). -/
namespace Sys2Proof.Machine

open Sys2Proof

/-- A step in progress (R197, R201): the thread as it was when the step began, the context as it stands, and the bytes stored so far,
newest first, which no one else sees until the step commits. -/
structure StepWork where
  start : Thread
  c : Ctx
  ov : List (Nat × PByte)
  deriving DecidableEq, Repr

/-- A step begins. -/
def beginStep (c : Ctx) : StepWork := ⟨c.t, c, []⟩

/-- The context that an exception of the step leaves: the thread as at the step's start (R199). -/
def StepWork.undo (w : StepWork) : Ctx := w.c.withT w.start

/-- R199: the accesses of one byte of a step: every address populated, then every key; `c0` is what an exception leaves. -/
def checkBytes (c0 c : Ctx) (l : List (Acc × Nat)) : Run Ctx :=
  match l.find? (fun x => !c.d.populated c.who x.1 x.2) with
  | some x => refusal c0 x.1.code x.2 .address
  | none =>
    match l.find? (fun x => (c.d.keyRule c.who x.1 x.2).isSome) with
    | some x => refusal c0 x.1.code x.2 ((c.d.keyRule c.who x.1 x.2).getD .key)
    | none => .ok (l.foldl (fun c x => c.withD (c.d.touch x.2 1 (decide (x.1 = .store)))) c)

/-- R199, R222: the addresses of one byte of a step are populated, before any key is looked at. -/
def StepWork.reach (w : StepWork) (l : List (Acc × Nat)) : Run Unit :=
  match l.find? (fun x => !w.c.d.populated w.c.who x.1 x.2) with
  | some x => refusal w.undo x.1.code x.2 .address
  | none => .ok ()

/-- The check of one byte's accesses within a step. -/
def StepWork.check (w : StepWork) (l : List (Acc × Nat)) : Run StepWork :=
  match checkBytes w.undo w.c l with
  | .error e => .error e
  | .ok c => .ok { w with c := c }

/-- A checked byte as the step reads it: its own stores first (R201). -/
def StepWork.read (w : StepWork) (a : Nat) : Run (PByte × StepWork) :=
  match w.ov.find? (fun x => x.1 == a) with
  | some x => .ok (x.2, w)
  | none => match w.c.fetchBytes a 1 with
    | .error e => .error e
    | .ok (bs, c) => .ok (bs.headD ⟨0, false⟩, { w with c := c })

/-- A checked byte stored by the step. -/
def StepWork.write (w : StepWork) (a : Nat) (b : PByte) : StepWork := { w with ov := (a, b) :: w.ov }

/-- The step commits: its bytes enter the store buffer as one store (R201). -/
def StepWork.commit (w : StepWork) : Run Ctx :=
  match w.ov with
  | [] => .ok w.c
  | x :: xs =>
    let lo := xs.foldl (fun m y => Nat.min m y.1) x.1
    let hi := xs.foldl (fun m y => Nat.max m y.1) x.1
    w.c.buffer lo ((List.range (hi + 1 - lo)).map (fun i =>
      match w.ov.find? (fun y => y.1 == lo + i) with | some y => y.2 | none => ⟨0, false⟩))

/-- A pointer or count register advanced by `k` (or back: 2^64 - k). -/
def StepWork.bump (w : StepWork) (r : GReg) (k : Word) : StepWork :=
  { w with c := w.c.setR r ⟨(w.c.r r).val + k, false⟩ }

/-- `n` bytes of a step, one after another. -/
def repeatByte (f : StepWork → Run StepWork) : Nat → StepWork → Run StepWork
  | 0, w => .ok w
  | n + 1, w => match f w with
    | .error e => .error e
    | .ok w => repeatByte f n w

/-- How a step of a whole-string form ends: the form goes on, or it is complete. -/
inductive StepEnd
  | more (c : Ctx)
  | done (c : Ctx)
  deriving DecidableEq, Repr

/-- A whole-string form (R197, R198, R200, R217): up to `n` steps. Before each, the count is read afresh; at 0 the form is complete; a
poisoned count or pointer is consumed as an address when a step begins. A step that must wait ends the command before it. -/
def wholeString (count : GReg) (ptrs : Ctx → List GReg) (step : Nat → Ctx → Run StepEnd) (complete : Ctx → Ctx) (first : Bool) :
    Nat → Ctx → Run Out
  | n, c =>
    if (c.r count).poison then machineCheck c 1
    else if (c.r count).val = 0 then seq8 (complete c)
    else match n with
      | 0 => .ok (.stay c)
      | n + 1 =>
        if (ptrs c).any (fun r => (c.r r).poison) then machineCheck c 1
        else match step (Nat.min 16 (c.r count).val.toNat) c with
          | .error .wait => if first then .error .wait else .ok (.stay c)
          | .error e => .error e
          | .ok (.done c) => seq8 c
          | .ok (.more c) => wholeString count ptrs step complete false n c

/-- A whole-string form of thread `g` whose register and byte fields are those of R195: a breach of R195 or R196 is ILLEGAL, code 2. -/
def stringForm (g : Nat) (ok : Bool) (regs : List GReg) (fl : Bool) (body : Ctx → Run Out) (s : State) :
    Host.Outcome State Fault Refusal :=
  runThread g s regs fl (fun c => if ok then body c else illegal c 2 0x33)

/-- A step of `k` bytes that stores (R199): all of it or nothing. -/
def storeStep (f : StepWork → Run StepWork) (k : Nat) (c : Ctx) : Run StepEnd :=
  match repeatByte f k (beginStep c) with
  | .error e => .error e
  | .ok w => match w.commit with
    | .error e => .error e
    | .ok c => .ok (.more c)

/-- One byte of MOVS (R205). -/
def movsByte (rd rs rn : GReg) (f : Bool) (byte : Byte) (w : StepWork) : Run StepWork :=
  let p := (w.c.r rd).val.toNat
  let q := (w.c.r rs).val.toNat
  match w.check (if f then [(.store, p)] else [(.load, q), (.store, p)]) with
  | .error e => .error e
  | .ok w => match (if f then .ok (⟨byte, false⟩, w) else w.read q) with
    | .error e => .error e
    | .ok (v, w) =>
      let w := (w.write p v).bump rd 1
      .ok ((if f then w else w.bump rs 1).bump rn (-1))

/-- MOVS (R205). -/
def execMovs (g : Nat) (rd rs rn : GReg) (f : Bool) (byte : Byte) (n : Nat) (s : State) : Host.Outcome State Fault Refusal :=
  stringForm g (stringFieldsOk 0 rd.toNat rs.toNat rn.toNat 0 f false 0 byte.toNat) [rd, rs, rn] false
    (wholeString rn (fun _ => if f then [rd] else [rd, rs]) (storeStep (movsByte rd rs rn f byte)) id true n) s

/-- One byte of MOVT (R206): a poisoned source byte is consumed as an address. -/
def movtByte (rd rs rn rt : GReg) (w : StepWork) : Run StepWork :=
  let p := (w.c.r rd).val.toNat
  let q := (w.c.r rs).val.toNat
  match w.reach [(.load, q), (.store, p)] with
  | .error e => .error e
  | .ok () => match w.check [(.load, q)] with
  | .error e => .error e
  | .ok w => match w.read q with
    | .error e => .error e
    | .ok (b, w) =>
      if b.poison then machineCheck w.undo 1
      else
        let x := ((w.c.r rt).val + b.val.setWidth 64).toNat
        match w.check [(.load, x), (.store, p)] with
        | .error e => .error e
        | .ok w => match w.read x with
          | .error e => .error e
          | .ok (v, w) => .ok ((((w.write p v).bump rd 1).bump rs 1).bump rn (-1))

/-- MOVT (R206). DEDUCED, assumption 19. -/
def execMovt (g : Nat) (rd rs rn rt : GReg) (n : Nat) (s : State) : Host.Outcome State Fault Refusal :=
  stringForm g (stringFieldsOk 1 rd.toNat rs.toNat rn.toNat rt.toNat false false 0 0) [rd, rs, rn, rt] false
    (wholeString rn (fun _ => [rd, rs, rt]) (storeStep (movtByte rd rs rn rt)) id true n) s

/-- Up to `k` bytes of a form that stores nothing (R199): each byte passed is passed for good. -/
def scanStep (f : Ctx → Run StepEnd) : Nat → Ctx → Run StepEnd
  | 0, c => .ok (.more c)
  | k + 1, c => match f c with
    | .ok (.more c) => scanStep f k c
    | r => r

/-- A checked byte read outside a storing step. -/
def readOne (c : Ctx) (a : Nat) : Run (PByte × Ctx) :=
  match c.fetchBytes a 1 with
  | .error e => .error e
  | .ok (bs, c) => .ok (bs.headD ⟨0, false⟩, c)

/-- A register advanced by `k`. -/
def Ctx.bump (c : Ctx) (r : GReg) (k : Word) : Ctx := c.setR r ⟨(c.r r).val + k, false⟩

/-- One pair of CMPS (R207): a poisoned byte stops it with FL poisoned (R217). -/
def cmpsByte (rd rs rn : GReg) (c : Ctx) : Run StepEnd :=
  let p := (c.r rd).val.toNat
  let q := (c.r rs).val.toNat
  match checkBytes c c [(.load, p), (.load, q)] with
  | .error e => .error e
  | .ok c => match readOne c p with
    | .error e => .error e
    | .ok (a, c) => match readOne c q with
      | .error e => .error e
      | .ok (b, c) =>
        if a.poison || b.poison then .ok (.done c.poisonFl)
        else if a.val ≠ b.val then .ok (.done (c.setFlags ⟨decide (a.val < b.val), false, decide (b.val ≤ a.val), false⟩))
        else .ok (.more (((c.bump rd 1).bump rs 1).bump rn (-1)))

/-- CMPS (R207). -/
def execCmps (g : Nat) (rd rs rn : GReg) (n : Nat) (s : State) : Host.Outcome State Fault Refusal :=
  stringForm g (stringFieldsOk 2 rd.toNat rs.toNat rn.toNat 0 false false 0 0) [rd, rs, rn] true
    (wholeString rn (fun _ => [rd, rs]) (scanStep (cmpsByte rd rs rn)) (fun c => c.setFlags ⟨false, true, true, false⟩) true n) s

/-- One byte of SCAN (R208). -/
def scanByte (rs rn : GReg) (ne : Bool) (byte : Byte) (c : Ctx) : Run StepEnd :=
  let q := (c.r rs).val.toNat
  match checkBytes c c [(.load, q)] with
  | .error e => .error e
  | .ok c => match readOne c q with
    | .error e => .error e
    | .ok (b, c) =>
      if b.poison then .ok (.done c.poisonFl)
      else if (b.val == byte) != ne then .ok (.done (c.setFlags ⟨false, true, false, false⟩))
      else .ok (.more ((c.bump rs 1).bump rn (-1)))

/-- SCAN (R208). -/
def execScan (g : Nat) (rs rn : GReg) (ne : Bool) (byte : Byte) (n : Nat) (s : State) : Host.Outcome State Fault Refusal :=
  stringForm g (stringFieldsOk 3 0 rs.toNat rn.toNat 0 false ne 0 byte.toNat) [rs, rn] true
    (wholeString rn (fun _ => [rs]) (scanStep (scanByte rs rn ne byte)) (fun c => c.setFlags ⟨false, false, false, false⟩) true n) s

/-- One byte of SCTB (R209): a poisoned source byte is consumed as an address, a poisoned entry stops it (R217). -/
def sctbByte (rd rs rn rt : GReg) (c : Ctx) : Run StepEnd :=
  let q := (c.r rs).val.toNat
  match checkBytes c c [(.load, q)] with
  | .error e => .error e
  | .ok c => match readOne c q with
    | .error e => .error e
    | .ok (b, c) =>
      if b.poison then machineCheck c 1
      else
        let x := ((c.r rt).val + b.val.setWidth 64).toNat
        match checkBytes c c [(.load, x)] with
        | .error e => .error e
        | .ok c => match readOne c x with
          | .error e => .error e
          | .ok (f, c) =>
            if f.poison then .ok (.done (c.poisonR rd).poisonFl)
            else if f.val ≠ 0 then
              .ok (.done ((c.setR rd ⟨f.val.setWidth 64, false⟩).setFlags ⟨false, true, false, false⟩))
            else .ok (.more ((c.bump rs 1).bump rn (-1)))

/-- SCTB (R209). -/
def execSctb (g : Nat) (rd rs rn rt : GReg) (n : Nat) (s : State) : Host.Outcome State Fault Refusal :=
  stringForm g (stringFieldsOk 4 rd.toNat rs.toNat rn.toNat rt.toNat false false 0 0) [rd, rs, rn, rt] true
    (wholeString rn (fun _ => [rs, rt]) (scanStep (sctbByte rd rs rn rt)) (fun c => c.setFlags ⟨false, false, false, false⟩) true n) s

/-- The operands of an edit: the registers, the location register of EDLOC, and the currency symbol. -/
structure EditOps where
  rd : GReg
  rs : GReg
  rn : GReg
  rt : GReg
  loc : Option GReg
  sym : Byte
  deriving DecidableEq, Repr

/-- The places of ES's fields (R203). -/
def esAct : Nat := 7
def esFlt : Nat := 6
def esSend : Nat := 5
def esZero : Nat := 4
def esNeg : Nat := 3
def esSig : Nat := 2
def esNib : Nat := 1
def esDgt : Nat := 0

/-- ES as the step has it. -/
def StepWork.es (w : StepWork) : Word := w.c.t.es.val
/-- A field of ES. -/
def StepWork.esBit (w : StepWork) (i : Nat) : Bool := bit w.es i
/-- ES written. -/
def StepWork.setEs (w : StepWork) (v : Word) : StepWork := { w with c := w.c.withT { w.c.t with es := ⟨v, false⟩ } }
/-- A field of ES written. -/
def StepWork.setEsBit (w : StepWork) (i : Nat) (b : Bool) : StepWork := w.setEs (setBit w.es i b)
/-- ES.FILL. -/
def StepWork.fill (w : StepWork) : Byte := BitVec.ofNat 8 (fld w.es 8 8)

/-- The pattern byte is done: `out` is stored at its destination and the pointers advance (R213). -/
def editPut (o : EditOps) (w : StepWork) (out : PByte) : StepWork :=
  (((w.write (w.c.r o.rd).val.toNat out).bump o.rd 1).bump o.rt 1).bump o.rn (-1)

/-- R217: an edit meets poison: ES, with ACT kept 1 until the edit ends, and EDLOC's location register receive the mark. DESIGN CHOICE, assumption 18. -/
def editPoison (o : EditOps) (w : StepWork) : StepWork :=
  let x := w.c.d.draw
  let c := (w.c.withD x.2).withT { w.c.t with es := ⟨setBit (x.1 &&& 0xFFFF#64) esAct true, true⟩ }
  { w with c := match o.loc with | some k => c.poisonR k | none => c }

/-- R217: a pattern byte of a poisoned edit. -/
def editPoisonByte (o : EditOps) (w : StepWork) : Run StepWork :=
  match w.check [(.store, (w.c.r o.rd).val.toNat)] with
  | .error e => .error e
  | .ok w =>
    let x := w.c.d.draw
    .ok (editPut o { w with c := w.c.withD x.2 } ⟨x.1.setWidth 8, true⟩)

/-- R214 NextDigit on source byte `b`: the digit, and ES and rs as it leaves them. -/
def nextDigit (o : EditOps) (b : Byte) (w : StepWork) : Run (Nat × StepWork) :=
  let hi := b.toNat / 16
  let lo := b.toNat % 16
  let bad : Run (Nat × StepWork) :=
    raise w.undo 6 (2 + ((w.c.r o.rs).val - (w.start.greg o.rs).val).toNat * 256)
  if w.esBit esNib then
    if 9 < lo then bad else .ok (lo, (w.setEsBit esNib false).bump o.rs 1)
  else if 9 < hi then bad
  else if 9 < lo then
    .ok (hi, ((w.setEsBit esSend true).setEsBit esNeg (decide (lo = 0xB ∨ lo = 0xD))).bump o.rs 1)
  else .ok (hi, w.setEsBit esNib true)

/-- The digit `d` of a digit place at destination `p` (R210, R212, R213): the byte to write, and the step; the currency symbol may be
written at p - 1. -/
def editDigit (o : EditOps) (p : Word) (d : Nat) (w : StepWork) : Run (Byte × StepWork) :=
  let w := if d ≠ 0 then w.setEsBit esZero false else w
  if w.esBit esSig || decide (d ≠ 0) then
    let place := !w.esBit esSig && w.esBit esFlt
    match (if place then w.check [(.store, (p - 1).toNat)] else .ok w) with
    | .error e => .error e
    | .ok w =>
      let w := if place then (w.write (p - 1).toNat ⟨o.sym, false⟩).setEsBit esFlt false else w
      let w := w.setEsBit esSig true
      let w := match o.loc with
        | some k => if w.esBit esDgt then w else { w with c := w.c.setR k ⟨p, false⟩ }
        | none => w
      .ok (BitVec.ofNat 8 (0x30 + d), w.setEsBit esDgt true)
  else .ok (w.fill, w)

/-- What a forced significance does after its digit (R211-R213). -/
def editForce (o : EditOps) (forced : Bool) (out : Byte) (w : StepWork) : StepWork :=
  if forced && !w.esBit esSig then
    let w := w.setEsBit esSig true
    if w.esBit esFlt then editPut o (w.setEsBit esFlt false) ⟨o.sym, false⟩ else editPut o w ⟨out, false⟩
  else editPut o w ⟨out, false⟩

/-- A digit place, forced significance or floating currency symbol `k` (R210-R214). -/
def editPlace (o : EditOps) (k : Byte) (w : StepWork) : Run StepWork :=
  let p := (w.c.r o.rd).val
  let w := if k = 5 ∧ !w.esBit esSig then w.setEsBit esFlt true else w
  if w.esBit esSend then
    match w.check [(.store, p.toNat)] with
    | .error e => .error e
    | .ok w => .ok (editForce o (decide (k = 2)) w.fill w)
  else
    let q := (w.c.r o.rs).val.toNat
    match w.check [(.load, q), (.store, p.toNat)] with
    | .error e => .error e
    | .ok w => match w.read q with
      | .error e => .error e
      | .ok (b, w) =>
        if b.poison then editPoisonByte o (editPoison o w)
        else match nextDigit o b.val w with
          | .error e => .error e
          | .ok (d, w) => match editDigit o p d w with
            | .error e => .error e
            | .ok (out, w) => .ok (editForce o (decide (k = 2)) out w)

/-- R217: an edit whose ES is poisoned gives EDLOC's location register the mark. -/
def markLoc (o : EditOps) (w : StepWork) : StepWork :=
  match o.loc with
  | some k => if (w.c.r k).poison then w else { w with c := w.c.poisonR k }
  | none => w

/-- R213 EditByte. The pattern byte and the destination are populated before the pattern byte's key is looked at (R222). -/
def editByte (o : EditOps) (w : StepWork) : Run StepWork :=
  if w.c.t.es.poison && w.esBit esAct then editPoisonByte o (markLoc o w)
  else match w.reach [(.load, (w.c.r o.rt).val.toNat), (.store, (w.c.r o.rd).val.toNat)] with
    | .error e => .error e
    | .ok () => match w.check [(.load, (w.c.r o.rt).val.toNat)] with
    | .error e => .error e
    | .ok w => match w.read (w.c.r o.rt).val.toNat with
      | .error e => .error e
      | .ok (k, w) =>
        if k.poison then editPoisonByte o (editPoison o w)
        else if w.esBit esAct ∧ (k.val = 1 ∨ k.val = 2 ∨ k.val = 5) then editPlace o k.val w
        else match w.check [(.store, (w.c.r o.rd).val.toNat)] with
          | .error e => .error e
          | .ok w =>
            if !w.esBit esAct then .ok (editPut o (w.setEs (word (k.val.toNat * 256 + 0x90))) ⟨k.val, false⟩)
            else if k.val = 3 then
              .ok (editPut o (w.setEs (setBit (w.es &&& ~~~0x6D#64) esZero true)) ⟨w.fill, false⟩)
            else if k.val = 4 then .ok (editPut o w ⟨if w.esBit esNeg then 0x2D else w.fill, false⟩)
            else .ok (editPut o w ⟨if w.esBit esSig then k.val else w.fill, false⟩)

/-- An edit completes (R213, R216, R217). -/
def editDone (c : Ctx) : Ctx :=
  let es := c.t.es
  let c := c.withT { c.t with es := ⟨es.val &&& ~~~0xC0#64, es.poison⟩ }
  if es.poison then c.poisonFl
  else c.setFlags ⟨bit es.val esNeg && !bit es.val esZero, bit es.val esZero, false, false⟩

/-- EDIT (R213). -/
def execEdit (g : Nat) (rd rs rn rt : GReg) (byte : Byte) (n : Nat) (s : State) : Host.Outcome State Fault Refusal :=
  stringForm g (stringFieldsOk 5 rd.toNat rs.toNat rn.toNat rt.toNat false false 0 byte.toNat) [rd, rs, rn, rt] true
    (wholeString rn (fun _ => [rd, rs, rt]) (storeStep (editByte ⟨rd, rs, rn, rt, none, byte⟩)) editDone true n) s

/-- EDLOC (R215): a poisoned location register is consumed as an address when a step begins (R217), unless the edit itself is already
poisoned, which gives it its mark. -/
def execEdloc (g : Nat) (rd rs rn rt rk : GReg) (byte : Byte) (n : Nat) (s : State) : Host.Outcome State Fault Refusal :=
  stringForm g (stringFieldsOk 6 rd.toNat rs.toNat rn.toNat rt.toNat false false rk.toNat byte.toNat) [rd, rs, rn, rt, rk] true
    (wholeString rn (fun c => if c.t.es.poison && bit c.t.es.val esAct then [rd, rs, rt] else [rd, rs, rt, rk])
      (storeStep (editByte ⟨rd, rs, rn, rt, some rk, byte⟩)) editDone true n) s

/-- One element of MOVE, without its end (R219). -/
def moveElem (rd rs : GReg) (sz : BitVec 2) (c : Ctx) : Run Ctx :=
  match c.base rs, c.base rd with
  | .error e, _ => .error e
  | _, .error e => .error e
  | .ok q, .ok p =>
    let n := sizeOf2 sz
    match c.check .load q.toNat n with
    | .error e => .error e
    | .ok c => match c.check .store p.toNat n with
      | .error e => .error e
      | .ok c => match c.fetchBytes q.toNat n with
        | .error e => .error e
        | .ok (bs, c) => match c.buffer p.toNat bs with
          | .error e => .error e
          | .ok c => .ok ((c.bump rs (word n)).bump rd (word n))

/-- One element of MOVTE (R219): a poisoned source byte is consumed as an address. -/
def movteElem (rd rs rt : GReg) (c : Ctx) : Run Ctx :=
  match c.base rs, c.base rd, c.base rt with
  | .error e, _, _ => .error e
  | _, .error e, _ => .error e
  | _, _, .error e => .error e
  | .ok q, .ok p, .ok t =>
    match c.load q.toNat 1 with
    | .error e => .error e
    | .ok (b, c) =>
      if anyPoison b then machineCheck c 1
      else match c.check .load (t + word (ofLe (vals b))).toNat 1 with
        | .error e => .error e
        | .ok c => match c.check .store p.toNat 1 with
          | .error e => .error e
          | .ok c => match c.fetchBytes (t + word (ofLe (vals b))).toNat 1 with
            | .error e => .error e
            | .ok (v, c) => match c.buffer p.toNat v with
              | .error e => .error e
              | .ok c => .ok ((c.bump rs 1).bump rd 1)

/-- One element of STE (R219); rs is a value. -/
def steElem (rd rs : GReg) (sz : BitVec 2) (c : Ctx) : Run Ctx :=
  match c.base rd with
  | .error e => .error e
  | .ok p =>
    let n := sizeOf2 sz
    match c.store p.toNat (regBytes n (c.r rs)) with
    | .error e => .error e
    | .ok c => .ok (c.bump rd (word n))

/-- An element outside a REP executes once (R220). -/
def elemOnce (f : Ctx → Run Ctx) (ok : Bool) (c : Ctx) : Run Out :=
  if !ok then illegal c 2 0x34
  else match f c with
    | .error e => .error e
    | .ok c => seq4 c

/-- MOVE (R219). -/
def execMove (g : Nat) (rd rs : GReg) (sz : BitVec 2) (s : State) : Host.Outcome State Fault Refusal :=
  runThread g s [rd, rs] false (elemOnce (moveElem rd rs sz) (distinctPointers [rd.toNat, rs.toNat]))
/-- MOVTE (R219). -/
def execMovte (g : Nat) (rd rs rt : GReg) (s : State) : Host.Outcome State Fault Refusal :=
  runThread g s [rd, rs, rt] false (elemOnce (movteElem rd rs rt) (distinctPointers [rd.toNat, rs.toNat, rt.toNat]))
/-- STE (R219). -/
def execSte (g : Nat) (rd rs : GReg) (sz : BitVec 2) (s : State) : Host.Outcome State Fault Refusal :=
  runThread g s [rd, rs] false (elemOnce (steElem rd rs sz) (decide (rd ≠ 0)))

/-- A register field of a word. -/
def greg5 (w : BitVec 32) (lo : Nat) : GReg := BitVec.ofNat 5 (ifld w lo 5)

/-- The element that the second word of a legal REP pair names (R218). -/
def elemOf (w : BitVec 32) : Ctx → Run Ctx :=
  let rd := greg5 w 21
  let rs := greg5 w 16
  let sz : BitVec 2 := BitVec.ofNat 2 (ifld w 6 2)
  if ifld w 0 6 = 0 then moveElem rd rs sz
  else if ifld w 0 6 = 1 then movteElem rd rs (greg5 w 11)
  else steElem rd rs sz

/-- Up to `n` repetitions of an element (R149, R220). -/
def repeatElem (f : Ctx → Run Ctx) (first : Bool) : Nat → Ctx → Run Out
  | n, c =>
    if c.t.cnt = 0 then seq8 c
    else match n with
      | 0 => .ok (.stay c)
      | n + 1 => match f c with
        | .error .wait => if first then .error .wait else .ok (.stay c)
        | .error e => .error e
        | .ok c => repeatElem f false n (c.withT { c.t with cnt := c.t.cnt - 1 })

/-- REP (R149-R151): the pair is decoded whole; then up to `n` repetitions before the next point at which an interrupt may fall. -/
def execRep (g : Nat) (low : BitVec 26) (second : BitVec 32) (n : Nat) (s : State) : Host.Outcome State Fault Refusal :=
  runThread g s [greg5 second 21, greg5 second 16, greg5 second 11] false (fun c =>
    match repDetail c.t.sup low second with
    | some k => raise c 1 k
    | none => repeatElem (elemOf second) true n c)

end Sys2Proof.Machine
end

