-- ==== Sys2Proof/Machine/Dispatch.lean ====
section
/-! DEFINITION. What each command does: one arm per constructor of `Instr`, each a direct call of its meaning. -/
namespace Sys2Proof.Machine

open Sys2Proof

def exec (i : Instr) (s : State) : Host.Outcome State Fault Refusal :=
  match i with
  | .add g rd ra rb => Sys2Proof.Machine.execAdd g rd ra rb s
  | .adc g rd ra rb => Sys2Proof.Machine.execAdc g rd ra rb s
  | .sub g rd ra rb => Sys2Proof.Machine.execSub g rd ra rb s
  | .sbc g rd ra rb => Sys2Proof.Machine.execSbc g rd ra rb s
  | .and g rd ra rb => Sys2Proof.Machine.execAnd g rd ra rb s
  | .or g rd ra rb => Sys2Proof.Machine.execOr g rd ra rb s
  | .xor g rd ra rb => Sys2Proof.Machine.execXor g rd ra rb s
  | .andn g rd ra rb => Sys2Proof.Machine.execAndn g rd ra rb s
  | .shl g rd ra rb => Sys2Proof.Machine.execShl g rd ra rb s
  | .shr g rd ra rb => Sys2Proof.Machine.execShr g rd ra rb s
  | .sar g rd ra rb => Sys2Proof.Machine.execSar g rd ra rb s
  | .mul g rd ra rb => Sys2Proof.Machine.execMul g rd ra rb s
  | .mulh g rd ra rb => Sys2Proof.Machine.execMulh g rd ra rb s
  | .mulhu g rd ra rb => Sys2Proof.Machine.execMulhu g rd ra rb s
  | .div g rd ra rb rr => Sys2Proof.Machine.execDiv g rd ra rb rr s
  | .divu g rd ra rb rr => Sys2Proof.Machine.execDivu g rd ra rb rr s
  | .addi g rd ra imm => Sys2Proof.Machine.execAddi g rd ra imm s
  | .subi g rd ra imm => Sys2Proof.Machine.execSubi g rd ra imm s
  | .andi g rd ra imm => Sys2Proof.Machine.execAndi g rd ra imm s
  | .ori g rd ra imm => Sys2Proof.Machine.execOri g rd ra imm s
  | .xori g rd ra imm => Sys2Proof.Machine.execXori g rd ra imm s
  | .movk g rd hw imm => Sys2Proof.Machine.execMovk g rd hw imm s
  | .shi g rd ra kind amt => Sys2Proof.Machine.execShi g rd ra kind amt s
  | .ld g r ra sz x disp ups => Sys2Proof.Machine.execLd g r ra sz x disp ups s
  | .st g r ra sz x disp => Sys2Proof.Machine.execSt g r ra sz x disp s
  | .aadd g rd ra rb sz => Sys2Proof.Machine.execAadd g rd ra rb sz s
  | .aswp g rd ra rb sz => Sys2Proof.Machine.execAswp g rd ra rb sz s
  | .acas g rd ra rb rc sz => Sys2Proof.Machine.execAcas g rd ra rb rc sz s
  | .aand g rd ra rb sz => Sys2Proof.Machine.execAand g rd ra rb sz s
  | .aor g rd ra rb sz => Sys2Proof.Machine.execAor g rd ra rb sz s
  | .bc g cond disp => Sys2Proof.Machine.execBc g cond disp s
  | .br g disp => Sys2Proof.Machine.execBr g disp s
  | .jmpr g ra => Sys2Proof.Machine.execJmpr g ra s
  | .callw g disp => Sys2Proof.Machine.execCallw g disp s
  | .callwr g ra => Sys2Proof.Machine.execCallwr g ra s
  | .retw g => Sys2Proof.Machine.execRetw g s
  | .mfs g ra spr => Sys2Proof.Machine.execMfs g ra spr s
  | .mts g ra spr => Sys2Proof.Machine.execMts g ra spr s
  | .ldm g ra rb n => Sys2Proof.Machine.execLdm g ra rb n s
  | .stm g ra rb n => Sys2Proof.Machine.execStm g ra rb n s
  | .loop g rc len => Sys2Proof.Machine.execLoop g rc len s
  | .rep g low second n => Sys2Proof.Machine.execRep g low second n s
  | .dadd g ops => Sys2Proof.Machine.execDadd g ops s
  | .dsub g ops => Sys2Proof.Machine.execDsub g ops s
  | .dmul g ops => Sys2Proof.Machine.execDmul g ops s
  | .ddiv g ops dm => Sys2Proof.Machine.execDdiv g ops dm s
  | .dcmp g ops => Sys2Proof.Machine.execDcmp g ops s
  | .dmac g dk dj dm => Sys2Proof.Machine.execDmac g dk dj dm s
  | .dshf g dk n rm => Sys2Proof.Machine.execDshf g dk n rm s
  | .dlda g dk ra l disp => Sys2Proof.Machine.execDlda g dk ra l disp s
  | .dsta g dk ra l disp => Sys2Proof.Machine.execDsta g dk ra l disp s
  | .dpack g ba bb l1 l2 m d1 d2 => Sys2Proof.Machine.execDpack g ba bb l1 l2 m d1 d2 s
  | .dunpk g ba bb l1 l2 m d1 d2 => Sys2Proof.Machine.execDunpk g ba bb l1 l2 m d1 d2 s
  | .dcvb g rd dk u => Sys2Proof.Machine.execDcvb g rd dk u s
  | .dcvd g dk ra u => Sys2Proof.Machine.execDcvd g dk ra u s
  | .dtst g ba l1 d1 => Sys2Proof.Machine.execDtst g ba l1 d1 s
  | .movs g rd rs rn f byte n => Sys2Proof.Machine.execMovs g rd rs rn f byte n s
  | .movt g rd rs rn rt n => Sys2Proof.Machine.execMovt g rd rs rn rt n s
  | .cmps g rd rs rn n => Sys2Proof.Machine.execCmps g rd rs rn n s
  | .scan g rs rn ne byte n => Sys2Proof.Machine.execScan g rs rn ne byte n s
  | .sctb g rd rs rn rt n => Sys2Proof.Machine.execSctb g rd rs rn rt n s
  | .edit g rd rs rn rt byte n => Sys2Proof.Machine.execEdit g rd rs rn rt byte n s
  | .edloc g rd rs rn rt rk byte n => Sys2Proof.Machine.execEdloc g rd rs rn rt rk byte n s
  | .move g rd rs sz => Sys2Proof.Machine.execMove g rd rs sz s
  | .movte g rd rs rt => Sys2Proof.Machine.execMovte g rd rs rt s
  | .ste g rd rs sz => Sys2Proof.Machine.execSte g rd rs sz s
  | .fadd g fmt fd fa fb => Sys2Proof.Machine.execFadd g fmt fd fa fb s
  | .fsub g fmt fd fa fb => Sys2Proof.Machine.execFsub g fmt fd fa fb s
  | .fmul g fmt fd fa fb => Sys2Proof.Machine.execFmul g fmt fd fa fb s
  | .fdiv g fmt fd fa fb => Sys2Proof.Machine.execFdiv g fmt fd fa fb s
  | .fsqrt g fmt fd fa => Sys2Proof.Machine.execFsqrt g fmt fd fa s
  | .fma g fmt fd fa fb fc => Sys2Proof.Machine.execFma g fmt fd fa fb fc s
  | .fcmp g fmt fa fb => Sys2Proof.Machine.execFcmp g fmt fa fb s
  | .fmov g fmt fd fa => Sys2Proof.Machine.execFmov g fmt fd fa s
  | .fneg g fmt fd fa => Sys2Proof.Machine.execFneg g fmt fd fa s
  | .fabs g fmt fd fa => Sys2Proof.Machine.execFabs g fmt fd fa s
  | .fquant g fmt fd fa fb => Sys2Proof.Machine.execFquant g fmt fd fa fb s
  | .fcvt g fmt dst fd fa => Sys2Proof.Machine.execFcvt g fmt dst fd fa s
  | .fcvti g r f fmt u => Sys2Proof.Machine.execFcvti g r f fmt u s
  | .fcvif g r f fmt u => Sys2Proof.Machine.execFcvif g r f fmt u s
  | .fmvfx g r f => Sys2Proof.Machine.execFmvfx g r f s
  | .fmvxf g r f => Sys2Proof.Machine.execFmvxf g r f s
  | .fbar g => Sys2Proof.Machine.execFbar g s
  | .fld g f sz ra disp => Sys2Proof.Machine.execFld g f sz ra disp s
  | .fst g f sz ra disp => Sys2Proof.Machine.execFst g f sz ra disp s
  | .fldp g f q ra l e => Sys2Proof.Machine.execFldp g f q ra l e s
  | .fstp g f q ra l e => Sys2Proof.Machine.execFstp g f q ra l e s
  | .floatingOpComplete g k => Sys2Proof.Machine.execFloatingOpComplete g k s
  | .scall g => Sys2Proof.Machine.execScall g s
  | .sret g => Sys2Proof.Machine.execSret g s
  | .retx g => Sys2Proof.Machine.execRetx g s
  | .fence g => Sys2Proof.Machine.execFence g s
  | .release g => Sys2Proof.Machine.execRelease g s
  | .trig g code => Sys2Proof.Machine.execTrig g code s
  | .brk g code => Sys2Proof.Machine.execBrk g code s
  | .hint g bits => Sys2Proof.Machine.execHint g bits s
  | .post g rd ra rb rt field rel => Sys2Proof.Machine.execPost g rd ra rb rt field rel s
  | .modeChangeCommit g => Sys2Proof.Machine.execModeChangeCommit g s
  | .instructionLineFetch g line => Sys2Proof.Machine.execInstructionLineFetch g line s
  | .storeBufferDrain g => Sys2Proof.Machine.execStoreBufferDrain g s
  | .exceptionEntry g => Sys2Proof.Machine.execExceptionEntry g s
  | .interruptPending source => Sys2Proof.Machine.execInterruptPending source s
  | .interruptEntry g => Sys2Proof.Machine.execInterruptEntry g s
  | .lineFill c line writable ups => Sys2Proof.Machine.execLineFill c line writable ups s
  | .writeGrant c line => Sys2Proof.Machine.execWriteGrant c line s
  | .lineInvalidation c line down => Sys2Proof.Machine.execLineInvalidation c line down s
  | .consistDispatch c => Sys2Proof.Machine.execConsistDispatch c s
  | .moveComplete t => Sys2Proof.Machine.execMoveComplete t s
  | .holdDrain t => Sys2Proof.Machine.execHoldDrain t s
  | .postExecute tag => Sys2Proof.Machine.execPostExecute tag s
  | .postResult tag => Sys2Proof.Machine.execPostResult tag s
  | .recordsDatagram p u => Sys2Proof.Machine.execRecordsDatagram p u s
  | .creditRequest p u => Sys2Proof.Machine.execCreditRequest p u s
  | .arpRequest p smac sip tip vlan flen => Sys2Proof.Machine.execArpRequest p smac sip tip vlan flen s
  | .neighbourSolicitation p smac sip dip target vlan flen => Sys2Proof.Machine.execNeighbourSolicitation p smac sip dip target vlan flen s
  | .frameDrop p f => Sys2Proof.Machine.execFrameDrop p f s
  | .ackCoalesceExpiry n => Sys2Proof.Machine.execAckCoalesceExpiry n s
  | .recordBufferRoom => Sys2Proof.Machine.execRecordBufferRoom s
  | .egressAckQueueSpace => Sys2Proof.Machine.execEgressAckQueueSpace s
  | .queueDoorbell ctl func loc v => Sys2Proof.Machine.execQueueDoorbell ctl func loc v s
  | .queueDescriptorWrite ctl func loc off bs => Sys2Proof.Machine.execQueueDescriptorWrite ctl func loc off bs s
  | .submitEntryTake ctl func loc entry record => Sys2Proof.Machine.execSubmitEntryTake ctl func loc entry record s
  | .journalQueueDelivery q => Sys2Proof.Machine.execJournalQueueDelivery q s
  | .journalFrame east f => Sys2Proof.Machine.execJournalFrame east f s
  | .stateFrame east f => Sys2Proof.Machine.execStateFrame east f s
  | .epochackFrame east f => Sys2Proof.Machine.execEpochackFrame east f s
  | .heartbeatFrame east f => Sys2Proof.Machine.execHeartbeatFrame east f s
  | .transferFrame east f => Sys2Proof.Machine.execTransferFrame east f s
  | .outcomeFrame east f => Sys2Proof.Machine.execOutcomeFrame east f s
  | .membershipFrame east f => Sys2Proof.Machine.execMembershipFrame east f s
  | .cutoverFrame east f => Sys2Proof.Machine.execCutoverFrame east f s
  | .linkackFrame east f => Sys2Proof.Machine.execLinkackFrame east f s
  | .badFrame east f => Sys2Proof.Machine.execBadFrame east f s
  | .linkResendTimeout east => Sys2Proof.Machine.execLinkResendTimeout east s
  | .linkIdle east => Sys2Proof.Machine.execLinkIdle east s
  | .portTrained east fibres => Sys2Proof.Machine.execPortTrained east fibres s
  | .portLossOfSignal east fibres => Sys2Proof.Machine.execPortLossOfSignal east fibres s
  | .silenceLoss => Sys2Proof.Machine.execSilenceLoss s
  | .linkdownExpiry east => Sys2Proof.Machine.execLinkdownExpiry east s
  | .joinTimeout => Sys2Proof.Machine.execJoinTimeout s
  | .llWatchdog => Sys2Proof.Machine.execLlWatchdog s
  | .throughLineSwitched insert => Sys2Proof.Machine.execThroughLineSwitched insert s
  | .registerWrite a o wide v => Sys2Proof.Machine.execRegisterWrite a o wide v s
  | .bitAliasWrite a o v => Sys2Proof.Machine.execBitAliasWrite a o v s
  | .interlockValueWrite a reset v => Sys2Proof.Machine.execInterlockValueWrite a reset v s
  | .interlockTimeout reset => Sys2Proof.Machine.execInterlockTimeout reset s
  | .cfgLockWrite a v => Sys2Proof.Machine.execCfgLockWrite a v s
  | .rwsApply => Sys2Proof.Machine.execRwsApply s
  | .snpGo a => Sys2Proof.Machine.execSnpGo a s
  | .sync a ctl tag vec => Sys2Proof.Machine.execSync a ctl tag vec s
  | .identity a ctl tag vec => Sys2Proof.Machine.execIdentity a ctl tag vec s
  | .quote a ctl tag vec => Sys2Proof.Machine.execQuote a ctl tag vec s
  | .mailboxCommandDone ctl nonce => Sys2Proof.Machine.execMailboxCommandDone ctl nonce s
  | .cfgIrtDataWrite a v => Sys2Proof.Machine.execCfgIrtDataWrite a v s
  | .cfgSwi a v => Sys2Proof.Machine.execCfgSwi a v s
  | .qmKdbWrite a v => Sys2Proof.Machine.execQmKdbWrite a v s
  | .kernelQueueReset a q => Sys2Proof.Machine.execKernelQueueReset a q s
  | .pinCommand a cluster track => Sys2Proof.Machine.execPinCommand a cluster track s
  | .unpinCommand a track => Sys2Proof.Machine.execUnpinCommand a track s
  | .yrdForbidWrite a v => Sys2Proof.Machine.execYrdForbidWrite a v s
  | .yrdSnapGo a v => Sys2Proof.Machine.execYrdSnapGo a v s
  | .jnlQdataWrite a v => Sys2Proof.Machine.execJnlQdataWrite a v s
  | .lineUpdate a v => Sys2Proof.Machine.execLineUpdate a v s
  | .leave a => Sys2Proof.Machine.execLeave a s
  | .force a on => Sys2Proof.Machine.execForce a on s
  | .heal a v => Sys2Proof.Machine.execHeal a v s
  | .scrubRead addr ups => Sys2Proof.Machine.execScrubRead addr ups s
  | .functionLevelReset ctl f => Sys2Proof.Machine.execFunctionLevelReset ctl f s
  | .perstN ctl => Sys2Proof.Machine.execPerstN ctl s
  | .pcieLinkUp ctl => Sys2Proof.Machine.execPcieLinkUp ctl s
  | .pcieLinkDown ctl => Sys2Proof.Machine.execPcieLinkDown ctl s
  | .checkpoint c => Sys2Proof.Machine.execCheckpoint c s
  | .coldStart strap => Sys2Proof.Machine.execColdStart strap s
  | .warmStart rise => Sys2Proof.Machine.execWarmStart rise s
  | .powerFailReset rail mv => Sys2Proof.Machine.execPowerFailReset rail mv s
  | .hbmTrainingDone ok => Sys2Proof.Machine.execHbmTrainingDone ok s
  | .imageReadDone big img => Sys2Proof.Machine.execImageReadDone big img s
  | .imageSlotFailure big len code => Sys2Proof.Machine.execImageSlotFailure big len code s
  | .threadRestart a g => Sys2Proof.Machine.execThreadRestart a g s
  | .clusterReset a mask => Sys2Proof.Machine.execClusterReset a mask s
  | .deviceSoftReset a => Sys2Proof.Machine.execDeviceSoftReset a s
  | .standbyEntry a => Sys2Proof.Machine.execStandbyEntry a s
  | .cautionEntry rail mv => Sys2Proof.Machine.execCautionEntry rail mv s
  | .thermalSensorRead raw => Sys2Proof.Machine.execThermalSensorRead raw s
  | .napEntry c => Sys2Proof.Machine.execNapEntry c s
  | .napExit c => Sys2Proof.Machine.execNapExit c s
  | .dozeEntry core => Sys2Proof.Machine.execDozeEntry core s
  | .dozeExit core => Sys2Proof.Machine.execDozeExit core s
  | .clkTodstep a v => Sys2Proof.Machine.execClkTodstep a v s
  | .timerExpiry n => Sys2Proof.Machine.execTimerExpiry n s
  | .sbxRngRead a => Sys2Proof.Machine.execSbxRngRead a s
  | .freeze a => Sys2Proof.Machine.execFreeze a s
  | .rearm a => Sys2Proof.Machine.execRearm a s
  | .trainExport a v => Sys2Proof.Machine.execTrainExport a v s
  | .trainImport a v => Sys2Proof.Machine.execTrainImport a v s
  | .exportImportDone extents bundle => Sys2Proof.Machine.execExportImportDone extents bundle s
  | .replayEnter a c => Sys2Proof.Machine.execReplayEnter a c s
  | .replayLoad a => Sys2Proof.Machine.execReplayLoad a s
  | .replayGo a => Sys2Proof.Machine.execReplayGo a s
  | .replayRecord asked => Sys2Proof.Machine.execReplayRecord asked s
  | .replayDump a => Sys2Proof.Machine.execReplayDump a s
  | .replayExit a => Sys2Proof.Machine.execReplayExit a s
  | .ptpFrameReceived p f => Sys2Proof.Machine.execPtpFrameReceived p f s
  | .ptpRxEnable p a v => Sys2Proof.Machine.execPtpRxEnable p a v s
  | .ptpRxHeadWrite p a v => Sys2Proof.Machine.execPtpRxHeadWrite p a v s
  | .ptpTx p a v => Sys2Proof.Machine.execPtpTx p a v s
  | .sidebandRead o => Sys2Proof.Machine.execSidebandRead o s
  | .ethLinkUp p => Sys2Proof.Machine.execEthLinkUp p s
  | .ethLinkDown p all => Sys2Proof.Machine.execEthLinkDown p all s
  | .extest cells => Sys2Proof.Machine.execExtest cells s
  | .epochBoundary => Sys2Proof.Machine.execEpochBoundary s
  | .signPeriodMark => Sys2Proof.Machine.execSignPeriodMark s
  | .chainSignature => Sys2Proof.Machine.execChainSignature s
  | .rngHealthFail => Sys2Proof.Machine.execRngHealthFail s
  | .powerDown => Sys2Proof.Machine.execPowerDown s
  | .powerFailRestart => Sys2Proof.Machine.execPowerFailRestart s
  | .clockFaultReset => Sys2Proof.Machine.execClockFaultReset s
  | .pllRelock => Sys2Proof.Machine.execPllRelock s
  | .clusterRelease => Sys2Proof.Machine.execClusterRelease s
  | .wake => Sys2Proof.Machine.execWake s
  | .cautionExit => Sys2Proof.Machine.execCautionExit s
  | .vcoreSetpointReported => Sys2Proof.Machine.execVcoreSetpointReported s
  | .thermtrip => Sys2Proof.Machine.execThermtrip s
  | .ppsInEdge => Sys2Proof.Machine.execPpsInEdge s
  | .ppsOutEdge => Sys2Proof.Machine.execPpsOutEdge s
  | .trigInEdge => Sys2Proof.Machine.execTrigInEdge s
  | .freezeInstant => Sys2Proof.Machine.execFreezeInstant s
  | .sidebandStatus => Sys2Proof.Machine.execSidebandStatus s

end Sys2Proof.Machine
end

