-- ==== Sys2Proof/Laws/SMap.lean ====
section
/-! SUPPORT. Sparse maps: what a set map reads, and that every operation keeps the canonical form. -/
namespace Sys2Proof.Machine

@[simp] theorem SMap.get_nil {α : Type} (d : Nat → α) (k : Nat) : SMap.get d [] k = d k := rfl

theorem SMap.get_erase {α : Type} (d : Nat → α) (m : SMap α) (k q : Nat) : SMap.get d (m.erase k) q = if q = k then d q else SMap.get d m q := by
  induction m with
  | nil => simp [SMap.erase]
  | cons p m ih =>
    obtain ⟨k', v⟩ := p
    unfold SMap.erase at ih ⊢
    by_cases hk : k' = k
    · subst hk; simp only [ne_eq, List.filter_cons, not_true_eq_false, decide_false, Bool.false_eq_true, if_false, ih, SMap.get]
      by_cases hq : q = k' <;> simp [hq]
    · simp only [ne_eq, List.filter_cons, hk, not_false_eq_true, decide_true, if_true, SMap.get, ih]
      by_cases hq : q = k' <;> simp [hq, hk]

theorem SMap.get_insert {α : Type} (d : Nat → α) (m : SMap α) (k q : Nat) (v : α) (h : ∀ p ∈ m, p.1 ≠ k) :
    SMap.get d (m.insert k v) q = if q = k then v else SMap.get d m q := by
  induction m with
  | nil => simp [SMap.insert, SMap.get]
  | cons p m ih =>
    obtain ⟨k', v'⟩ := p
    have hk : k' ≠ k := h (k', v') (by simp)
    have ih := ih (fun p hp => h p (by simp [hp]))
    unfold SMap.insert
    split
    · simp [SMap.get]
    · simp only [SMap.get, ih]
      by_cases hq : q = k'
      · subst hq; simp [hk]
      · simp [hq]

/-- What a map reads after one key is set: on every map, canonical or not. -/
theorem SMap.get_set {α : Type} [DecidableEq α] (d : Nat → α) (m : SMap α) (k q : Nat) (v : α) : SMap.get d (SMap.set d m k v) q = if q = k then v else SMap.get d m q := by
  unfold SMap.set
  split
  · next h => rw [SMap.get_erase, h]; by_cases hq : q = k <;> simp [hq]
  · rw [SMap.get_insert _ _ _ _ _ (by simp [SMap.erase]), SMap.get_erase]
    by_cases hq : q = k <;> simp [hq]

@[simp] theorem SMap.get_set_same {α : Type} [DecidableEq α] (d : Nat → α) (m : SMap α) (k : Nat) (v : α) : SMap.get d (SMap.set d m k v) k = v := by simp [SMap.get_set]

theorem SMap.get_set_ne {α : Type} [DecidableEq α] (d : Nat → α) (m : SMap α) (k q : Nat) (v : α) (h : q ≠ k) : SMap.get d (SMap.set d m k v) q = SMap.get d m q := by
  simp [SMap.get_set, h]

theorem SMap.wfFrom_mono {α : Type} [DecidableEq α] (d : Nat → α) (m : SMap α) {a b : Nat} (h : a ≤ b) (w : SMap.wfFrom d b m = true) : SMap.wfFrom d a m = true := by
  cases m with
  | nil => rfl
  | cons p m => simp only [SMap.wfFrom, Bool.and_eq_true, decide_eq_true_eq] at w ⊢; exact ⟨⟨by omega, w.1.2⟩, w.2⟩

/-- A filter of a canonical map is canonical. -/
theorem SMap.wfFrom_filter {α : Type} [DecidableEq α] (d : Nat → α) (f : Nat × α → Bool) (m : SMap α) (b : Nat) (w : SMap.wfFrom d b m = true) :
    SMap.wfFrom d b (m.filter f) = true := by
  induction m generalizing b with
  | nil => rfl
  | cons p m ih =>
    simp only [SMap.wfFrom, Bool.and_eq_true, decide_eq_true_eq] at w
    have hm := ih _ w.2
    simp only [List.filter_cons]
    split
    · simp only [SMap.wfFrom, Bool.and_eq_true, decide_eq_true_eq]; exact ⟨w.1, hm⟩
    · exact SMap.wfFrom_mono d _ (by omega) hm

theorem SMap.wfFrom_insert {α : Type} [DecidableEq α] (d : Nat → α) (m : SMap α) (b k : Nat) (v : α) (hv : v ≠ d k) (hb : b ≤ k) (h : ∀ p ∈ m, p.1 ≠ k)
    (w : SMap.wfFrom d b m = true) : SMap.wfFrom d b (m.insert k v) = true := by
  induction m generalizing b with
  | nil => simp [SMap.insert, SMap.wfFrom, hv, hb]
  | cons p m ih =>
    obtain ⟨k', v'⟩ := p
    simp only [SMap.wfFrom, Bool.and_eq_true, decide_eq_true_eq] at w
    have hk : k' ≠ k := h (k', v') (by simp)
    unfold SMap.insert
    split
    · next hlt =>
      simp only [SMap.wfFrom, Bool.and_eq_true, decide_eq_true_eq]
      exact ⟨⟨hb, hv⟩, ⟨by omega, w.1.2⟩, w.2⟩
    · next hlt =>
      simp only [SMap.wfFrom, Bool.and_eq_true, decide_eq_true_eq]
      exact ⟨w.1, ih (k' + 1) (by omega) (fun p hp => h p (by simp [hp])) w.2⟩

/-- Filtering and setting keep the canonical form. -/
theorem SMap.wf_filter {α : Type} [DecidableEq α] (d : Nat → α) (f : Nat × α → Bool) (m : SMap α) (w : SMap.wf d m = true) : SMap.wf d (m.filter f) = true :=
  SMap.wfFrom_filter d f m 0 w

theorem SMap.wf_set {α : Type} [DecidableEq α] (d : Nat → α) (m : SMap α) (k : Nat) (v : α) (w : SMap.wf d m = true) : SMap.wf d (SMap.set d m k v) = true := by
  unfold SMap.set
  split
  · exact SMap.wf_filter d _ m w
  · next hv =>
    exact SMap.wfFrom_insert d _ 0 k v hv (Nat.zero_le k) (by simp [SMap.erase]) (SMap.wf_filter d _ m w)

@[simp] theorem SMap.wf_nil {α : Type} [DecidableEq α] (d : Nat → α) : SMap.wf d [] = true := rfl

end Sys2Proof.Machine
end

