-- ==== Sys2Proof/Laws/State.lean ====
section
/-! SUPPORT. The fields of a device after each of its updates, and what its accessors read after the update of their own. -/
namespace Sys2Proof.Machine

open Sys2Proof

@[simp] theorem Dev.setThread_clu (d : Dev) (g : Nat) (t : Thread) : (d.setThread g t).clu = d.clu := rfl
@[simp] theorem Dev.setThread_btb (d : Dev) (g : Nat) (t : Thread) : (d.setThread g t).btb = d.btb := rfl
@[simp] theorem Dev.setThread_mem (d : Dev) (g : Nat) (t : Thread) : (d.setThread g t).mem = d.mem := rfl
@[simp] theorem Dev.setThread_ctl (d : Dev) (g : Nat) (t : Thread) : (d.setThread g t).ctl = d.ctl := rfl
@[simp] theorem Dev.setThread_rpt (d : Dev) (g : Nat) (t : Thread) : (d.setThread g t).rpt = d.rpt := rfl
@[simp] theorem Dev.setThread_gated (d : Dev) (g : Nat) (t : Thread) : (d.setThread g t).gated = d.gated := rfl
@[simp] theorem Dev.setThread_trg (d : Dev) (g : Nat) (t : Thread) : (d.setThread g t).trg = d.trg := rfl
@[simp] theorem Dev.setThread_hub (d : Dev) (g : Nat) (t : Thread) : (d.setThread g t).hub = d.hub := rfl
@[simp] theorem Dev.setThread_yard (d : Dev) (g : Nat) (t : Thread) : (d.setThread g t).yard = d.yard := rfl
@[simp] theorem Dev.setThread_jnl (d : Dev) (g : Nat) (t : Thread) : (d.setThread g t).jnl = d.jnl := rfl
@[simp] theorem Dev.setThread_ring (d : Dev) (g : Nat) (t : Thread) : (d.setThread g t).ring = d.ring := rfl
@[simp] theorem Dev.setThread_tt (d : Dev) (g : Nat) (t : Thread) : (d.setThread g t).tt = d.tt := rfl
@[simp] theorem Dev.setThread_box (d : Dev) (g : Nat) (t : Thread) : (d.setThread g t).box = d.box := rfl
@[simp] theorem Dev.setThread_tod (d : Dev) (g : Nat) (t : Thread) : (d.setThread g t).tod = d.tod := rfl
@[simp] theorem Dev.setThread_edges (d : Dev) (g : Nat) (t : Thread) : (d.setThread g t).edges = d.edges := rfl
@[simp] theorem Dev.setThread_out (d : Dev) (g : Nat) (t : Thread) : (d.setThread g t).out = d.out := rfl
@[simp] theorem Dev.setThread_free (d : Dev) (g : Nat) (t : Thread) : (d.setThread g t).free = d.free := rfl

@[simp] theorem Dev.setCluster_thr (d : Dev) (c : Nat) (x : Cluster) : (d.setCluster c x).thr = d.thr := rfl
@[simp] theorem Dev.setCluster_btb (d : Dev) (c : Nat) (x : Cluster) : (d.setCluster c x).btb = d.btb := rfl
@[simp] theorem Dev.setCluster_mem (d : Dev) (c : Nat) (x : Cluster) : (d.setCluster c x).mem = d.mem := rfl
@[simp] theorem Dev.setCluster_ctl (d : Dev) (c : Nat) (x : Cluster) : (d.setCluster c x).ctl = d.ctl := rfl
@[simp] theorem Dev.setCluster_rpt (d : Dev) (c : Nat) (x : Cluster) : (d.setCluster c x).rpt = d.rpt := rfl
@[simp] theorem Dev.setCluster_gated (d : Dev) (c : Nat) (x : Cluster) : (d.setCluster c x).gated = d.gated := rfl
@[simp] theorem Dev.setCluster_trg (d : Dev) (c : Nat) (x : Cluster) : (d.setCluster c x).trg = d.trg := rfl
@[simp] theorem Dev.setCluster_hub (d : Dev) (c : Nat) (x : Cluster) : (d.setCluster c x).hub = d.hub := rfl
@[simp] theorem Dev.setCluster_yard (d : Dev) (c : Nat) (x : Cluster) : (d.setCluster c x).yard = d.yard := rfl
@[simp] theorem Dev.setCluster_jnl (d : Dev) (c : Nat) (x : Cluster) : (d.setCluster c x).jnl = d.jnl := rfl
@[simp] theorem Dev.setCluster_ring (d : Dev) (c : Nat) (x : Cluster) : (d.setCluster c x).ring = d.ring := rfl
@[simp] theorem Dev.setCluster_tt (d : Dev) (c : Nat) (x : Cluster) : (d.setCluster c x).tt = d.tt := rfl
@[simp] theorem Dev.setCluster_box (d : Dev) (c : Nat) (x : Cluster) : (d.setCluster c x).box = d.box := rfl
@[simp] theorem Dev.setCluster_tod (d : Dev) (c : Nat) (x : Cluster) : (d.setCluster c x).tod = d.tod := rfl
@[simp] theorem Dev.setCluster_edges (d : Dev) (c : Nat) (x : Cluster) : (d.setCluster c x).edges = d.edges := rfl
@[simp] theorem Dev.setCluster_out (d : Dev) (c : Nat) (x : Cluster) : (d.setCluster c x).out = d.out := rfl
@[simp] theorem Dev.setCluster_free (d : Dev) (c : Nat) (x : Cluster) : (d.setCluster c x).free = d.free := rfl

@[simp] theorem Dev.setReg_thr (d : Dev) (o : Nat) (v : Word) : (d.setReg o v).thr = d.thr := rfl
@[simp] theorem Dev.setReg_clu (d : Dev) (o : Nat) (v : Word) : (d.setReg o v).clu = d.clu := rfl
@[simp] theorem Dev.setReg_btb (d : Dev) (o : Nat) (v : Word) : (d.setReg o v).btb = d.btb := rfl
@[simp] theorem Dev.setReg_mem (d : Dev) (o : Nat) (v : Word) : (d.setReg o v).mem = d.mem := rfl
@[simp] theorem Dev.setReg_rpt (d : Dev) (o : Nat) (v : Word) : (d.setReg o v).rpt = d.rpt := rfl
@[simp] theorem Dev.setReg_gated (d : Dev) (o : Nat) (v : Word) : (d.setReg o v).gated = d.gated := rfl
@[simp] theorem Dev.setReg_trg (d : Dev) (o : Nat) (v : Word) : (d.setReg o v).trg = d.trg := rfl
@[simp] theorem Dev.setReg_hub (d : Dev) (o : Nat) (v : Word) : (d.setReg o v).hub = d.hub := rfl
@[simp] theorem Dev.setReg_yard (d : Dev) (o : Nat) (v : Word) : (d.setReg o v).yard = d.yard := rfl
@[simp] theorem Dev.setReg_jnl (d : Dev) (o : Nat) (v : Word) : (d.setReg o v).jnl = d.jnl := rfl
@[simp] theorem Dev.setReg_ring (d : Dev) (o : Nat) (v : Word) : (d.setReg o v).ring = d.ring := rfl
@[simp] theorem Dev.setReg_tt (d : Dev) (o : Nat) (v : Word) : (d.setReg o v).tt = d.tt := rfl
@[simp] theorem Dev.setReg_box (d : Dev) (o : Nat) (v : Word) : (d.setReg o v).box = d.box := rfl
@[simp] theorem Dev.setReg_tod (d : Dev) (o : Nat) (v : Word) : (d.setReg o v).tod = d.tod := rfl
@[simp] theorem Dev.setReg_edges (d : Dev) (o : Nat) (v : Word) : (d.setReg o v).edges = d.edges := rfl
@[simp] theorem Dev.setReg_out (d : Dev) (o : Nat) (v : Word) : (d.setReg o v).out = d.out := rfl
@[simp] theorem Dev.setReg_free (d : Dev) (o : Nat) (v : Word) : (d.setReg o v).free = d.free := rfl

@[simp] theorem Dev.setRf_thr (d : Dev) (o lo n v : Nat) : (d.setRf o lo n v).thr = d.thr := rfl
@[simp] theorem Dev.setRf_clu (d : Dev) (o lo n v : Nat) : (d.setRf o lo n v).clu = d.clu := rfl
@[simp] theorem Dev.setRf_btb (d : Dev) (o lo n v : Nat) : (d.setRf o lo n v).btb = d.btb := rfl
@[simp] theorem Dev.setRf_mem (d : Dev) (o lo n v : Nat) : (d.setRf o lo n v).mem = d.mem := rfl
@[simp] theorem Dev.setRf_rpt (d : Dev) (o lo n v : Nat) : (d.setRf o lo n v).rpt = d.rpt := rfl
@[simp] theorem Dev.setRf_gated (d : Dev) (o lo n v : Nat) : (d.setRf o lo n v).gated = d.gated := rfl
@[simp] theorem Dev.setRf_trg (d : Dev) (o lo n v : Nat) : (d.setRf o lo n v).trg = d.trg := rfl
@[simp] theorem Dev.setRf_hub (d : Dev) (o lo n v : Nat) : (d.setRf o lo n v).hub = d.hub := rfl
@[simp] theorem Dev.setRf_yard (d : Dev) (o lo n v : Nat) : (d.setRf o lo n v).yard = d.yard := rfl
@[simp] theorem Dev.setRf_jnl (d : Dev) (o lo n v : Nat) : (d.setRf o lo n v).jnl = d.jnl := rfl
@[simp] theorem Dev.setRf_ring (d : Dev) (o lo n v : Nat) : (d.setRf o lo n v).ring = d.ring := rfl
@[simp] theorem Dev.setRf_tt (d : Dev) (o lo n v : Nat) : (d.setRf o lo n v).tt = d.tt := rfl
@[simp] theorem Dev.setRf_box (d : Dev) (o lo n v : Nat) : (d.setRf o lo n v).box = d.box := rfl
@[simp] theorem Dev.setRf_tod (d : Dev) (o lo n v : Nat) : (d.setRf o lo n v).tod = d.tod := rfl
@[simp] theorem Dev.setRf_edges (d : Dev) (o lo n v : Nat) : (d.setRf o lo n v).edges = d.edges := rfl
@[simp] theorem Dev.setRf_out (d : Dev) (o lo n v : Nat) : (d.setRf o lo n v).out = d.out := rfl
@[simp] theorem Dev.setRf_free (d : Dev) (o lo n v : Nat) : (d.setRf o lo n v).free = d.free := rfl

@[simp] theorem Dev.setRb_thr (d : Dev) (o i : Nat) (b : Bool) : (d.setRb o i b).thr = d.thr := rfl
@[simp] theorem Dev.setRb_clu (d : Dev) (o i : Nat) (b : Bool) : (d.setRb o i b).clu = d.clu := rfl
@[simp] theorem Dev.setRb_btb (d : Dev) (o i : Nat) (b : Bool) : (d.setRb o i b).btb = d.btb := rfl
@[simp] theorem Dev.setRb_mem (d : Dev) (o i : Nat) (b : Bool) : (d.setRb o i b).mem = d.mem := rfl
@[simp] theorem Dev.setRb_rpt (d : Dev) (o i : Nat) (b : Bool) : (d.setRb o i b).rpt = d.rpt := rfl
@[simp] theorem Dev.setRb_gated (d : Dev) (o i : Nat) (b : Bool) : (d.setRb o i b).gated = d.gated := rfl
@[simp] theorem Dev.setRb_trg (d : Dev) (o i : Nat) (b : Bool) : (d.setRb o i b).trg = d.trg := rfl
@[simp] theorem Dev.setRb_hub (d : Dev) (o i : Nat) (b : Bool) : (d.setRb o i b).hub = d.hub := rfl
@[simp] theorem Dev.setRb_yard (d : Dev) (o i : Nat) (b : Bool) : (d.setRb o i b).yard = d.yard := rfl
@[simp] theorem Dev.setRb_jnl (d : Dev) (o i : Nat) (b : Bool) : (d.setRb o i b).jnl = d.jnl := rfl
@[simp] theorem Dev.setRb_ring (d : Dev) (o i : Nat) (b : Bool) : (d.setRb o i b).ring = d.ring := rfl
@[simp] theorem Dev.setRb_tt (d : Dev) (o i : Nat) (b : Bool) : (d.setRb o i b).tt = d.tt := rfl
@[simp] theorem Dev.setRb_box (d : Dev) (o i : Nat) (b : Bool) : (d.setRb o i b).box = d.box := rfl
@[simp] theorem Dev.setRb_tod (d : Dev) (o i : Nat) (b : Bool) : (d.setRb o i b).tod = d.tod := rfl
@[simp] theorem Dev.setRb_edges (d : Dev) (o i : Nat) (b : Bool) : (d.setRb o i b).edges = d.edges := rfl
@[simp] theorem Dev.setRb_out (d : Dev) (o i : Nat) (b : Bool) : (d.setRb o i b).out = d.out := rfl
@[simp] theorem Dev.setRb_free (d : Dev) (o i : Nat) (b : Bool) : (d.setRb o i b).free = d.free := rfl

@[simp] theorem Dev.count_thr (d : Dev) (o lo n k : Nat) : (d.count o lo n k).thr = d.thr := rfl
@[simp] theorem Dev.count_clu (d : Dev) (o lo n k : Nat) : (d.count o lo n k).clu = d.clu := rfl
@[simp] theorem Dev.count_btb (d : Dev) (o lo n k : Nat) : (d.count o lo n k).btb = d.btb := rfl
@[simp] theorem Dev.count_mem (d : Dev) (o lo n k : Nat) : (d.count o lo n k).mem = d.mem := rfl
@[simp] theorem Dev.count_rpt (d : Dev) (o lo n k : Nat) : (d.count o lo n k).rpt = d.rpt := rfl
@[simp] theorem Dev.count_gated (d : Dev) (o lo n k : Nat) : (d.count o lo n k).gated = d.gated := rfl
@[simp] theorem Dev.count_trg (d : Dev) (o lo n k : Nat) : (d.count o lo n k).trg = d.trg := rfl
@[simp] theorem Dev.count_hub (d : Dev) (o lo n k : Nat) : (d.count o lo n k).hub = d.hub := rfl
@[simp] theorem Dev.count_yard (d : Dev) (o lo n k : Nat) : (d.count o lo n k).yard = d.yard := rfl
@[simp] theorem Dev.count_jnl (d : Dev) (o lo n k : Nat) : (d.count o lo n k).jnl = d.jnl := rfl
@[simp] theorem Dev.count_ring (d : Dev) (o lo n k : Nat) : (d.count o lo n k).ring = d.ring := rfl
@[simp] theorem Dev.count_tt (d : Dev) (o lo n k : Nat) : (d.count o lo n k).tt = d.tt := rfl
@[simp] theorem Dev.count_box (d : Dev) (o lo n k : Nat) : (d.count o lo n k).box = d.box := rfl
@[simp] theorem Dev.count_tod (d : Dev) (o lo n k : Nat) : (d.count o lo n k).tod = d.tod := rfl
@[simp] theorem Dev.count_edges (d : Dev) (o lo n k : Nat) : (d.count o lo n k).edges = d.edges := rfl
@[simp] theorem Dev.count_out (d : Dev) (o lo n k : Nat) : (d.count o lo n k).out = d.out := rfl
@[simp] theorem Dev.count_free (d : Dev) (o lo n k : Nat) : (d.count o lo n k).free = d.free := rfl

@[simp] theorem Dev.setShare_thr (d : Dev) (c : Nat) (x : Share) : (d.setShare c x).thr = d.thr := rfl
@[simp] theorem Dev.setShare_clu (d : Dev) (c : Nat) (x : Share) : (d.setShare c x).clu = d.clu := rfl
@[simp] theorem Dev.setShare_btb (d : Dev) (c : Nat) (x : Share) : (d.setShare c x).btb = d.btb := rfl
@[simp] theorem Dev.setShare_mem (d : Dev) (c : Nat) (x : Share) : (d.setShare c x).mem = d.mem := rfl
@[simp] theorem Dev.setShare_ctl (d : Dev) (c : Nat) (x : Share) : (d.setShare c x).ctl = d.ctl := rfl
@[simp] theorem Dev.setShare_rpt (d : Dev) (c : Nat) (x : Share) : (d.setShare c x).rpt = d.rpt := rfl
@[simp] theorem Dev.setShare_gated (d : Dev) (c : Nat) (x : Share) : (d.setShare c x).gated = d.gated := rfl
@[simp] theorem Dev.setShare_hub (d : Dev) (c : Nat) (x : Share) : (d.setShare c x).hub = d.hub := rfl
@[simp] theorem Dev.setShare_yard (d : Dev) (c : Nat) (x : Share) : (d.setShare c x).yard = d.yard := rfl
@[simp] theorem Dev.setShare_jnl (d : Dev) (c : Nat) (x : Share) : (d.setShare c x).jnl = d.jnl := rfl
@[simp] theorem Dev.setShare_ring (d : Dev) (c : Nat) (x : Share) : (d.setShare c x).ring = d.ring := rfl
@[simp] theorem Dev.setShare_tt (d : Dev) (c : Nat) (x : Share) : (d.setShare c x).tt = d.tt := rfl
@[simp] theorem Dev.setShare_box (d : Dev) (c : Nat) (x : Share) : (d.setShare c x).box = d.box := rfl
@[simp] theorem Dev.setShare_tod (d : Dev) (c : Nat) (x : Share) : (d.setShare c x).tod = d.tod := rfl
@[simp] theorem Dev.setShare_edges (d : Dev) (c : Nat) (x : Share) : (d.setShare c x).edges = d.edges := rfl
@[simp] theorem Dev.setShare_out (d : Dev) (c : Nat) (x : Share) : (d.setShare c x).out = d.out := rfl
@[simp] theorem Dev.setShare_free (d : Dev) (c : Nat) (x : Share) : (d.setShare c x).free = d.free := rfl

@[simp] theorem Dev.setByte_thr (d : Dev) (a : Nat) (b : Byte) : (d.setByte a b).thr = d.thr := rfl
@[simp] theorem Dev.setByte_clu (d : Dev) (a : Nat) (b : Byte) : (d.setByte a b).clu = d.clu := rfl
@[simp] theorem Dev.setByte_btb (d : Dev) (a : Nat) (b : Byte) : (d.setByte a b).btb = d.btb := rfl
@[simp] theorem Dev.setByte_ctl (d : Dev) (a : Nat) (b : Byte) : (d.setByte a b).ctl = d.ctl := rfl
@[simp] theorem Dev.setByte_rpt (d : Dev) (a : Nat) (b : Byte) : (d.setByte a b).rpt = d.rpt := rfl
@[simp] theorem Dev.setByte_gated (d : Dev) (a : Nat) (b : Byte) : (d.setByte a b).gated = d.gated := rfl
@[simp] theorem Dev.setByte_trg (d : Dev) (a : Nat) (b : Byte) : (d.setByte a b).trg = d.trg := rfl
@[simp] theorem Dev.setByte_hub (d : Dev) (a : Nat) (b : Byte) : (d.setByte a b).hub = d.hub := rfl
@[simp] theorem Dev.setByte_yard (d : Dev) (a : Nat) (b : Byte) : (d.setByte a b).yard = d.yard := rfl
@[simp] theorem Dev.setByte_jnl (d : Dev) (a : Nat) (b : Byte) : (d.setByte a b).jnl = d.jnl := rfl
@[simp] theorem Dev.setByte_ring (d : Dev) (a : Nat) (b : Byte) : (d.setByte a b).ring = d.ring := rfl
@[simp] theorem Dev.setByte_tt (d : Dev) (a : Nat) (b : Byte) : (d.setByte a b).tt = d.tt := rfl
@[simp] theorem Dev.setByte_box (d : Dev) (a : Nat) (b : Byte) : (d.setByte a b).box = d.box := rfl
@[simp] theorem Dev.setByte_tod (d : Dev) (a : Nat) (b : Byte) : (d.setByte a b).tod = d.tod := rfl
@[simp] theorem Dev.setByte_edges (d : Dev) (a : Nat) (b : Byte) : (d.setByte a b).edges = d.edges := rfl
@[simp] theorem Dev.setByte_out (d : Dev) (a : Nat) (b : Byte) : (d.setByte a b).out = d.out := rfl
@[simp] theorem Dev.setByte_free (d : Dev) (a : Nat) (b : Byte) : (d.setByte a b).free = d.free := rfl

@[simp] theorem Dev.setMark_thr (d : Dev) (q : Nat) (b : Bool) : (d.setMark q b).thr = d.thr := rfl
@[simp] theorem Dev.setMark_clu (d : Dev) (q : Nat) (b : Bool) : (d.setMark q b).clu = d.clu := rfl
@[simp] theorem Dev.setMark_btb (d : Dev) (q : Nat) (b : Bool) : (d.setMark q b).btb = d.btb := rfl
@[simp] theorem Dev.setMark_ctl (d : Dev) (q : Nat) (b : Bool) : (d.setMark q b).ctl = d.ctl := rfl
@[simp] theorem Dev.setMark_rpt (d : Dev) (q : Nat) (b : Bool) : (d.setMark q b).rpt = d.rpt := rfl
@[simp] theorem Dev.setMark_gated (d : Dev) (q : Nat) (b : Bool) : (d.setMark q b).gated = d.gated := rfl
@[simp] theorem Dev.setMark_trg (d : Dev) (q : Nat) (b : Bool) : (d.setMark q b).trg = d.trg := rfl
@[simp] theorem Dev.setMark_hub (d : Dev) (q : Nat) (b : Bool) : (d.setMark q b).hub = d.hub := rfl
@[simp] theorem Dev.setMark_yard (d : Dev) (q : Nat) (b : Bool) : (d.setMark q b).yard = d.yard := rfl
@[simp] theorem Dev.setMark_jnl (d : Dev) (q : Nat) (b : Bool) : (d.setMark q b).jnl = d.jnl := rfl
@[simp] theorem Dev.setMark_ring (d : Dev) (q : Nat) (b : Bool) : (d.setMark q b).ring = d.ring := rfl
@[simp] theorem Dev.setMark_tt (d : Dev) (q : Nat) (b : Bool) : (d.setMark q b).tt = d.tt := rfl
@[simp] theorem Dev.setMark_box (d : Dev) (q : Nat) (b : Bool) : (d.setMark q b).box = d.box := rfl
@[simp] theorem Dev.setMark_tod (d : Dev) (q : Nat) (b : Bool) : (d.setMark q b).tod = d.tod := rfl
@[simp] theorem Dev.setMark_edges (d : Dev) (q : Nat) (b : Bool) : (d.setMark q b).edges = d.edges := rfl
@[simp] theorem Dev.setMark_out (d : Dev) (q : Nat) (b : Bool) : (d.setMark q b).out = d.out := rfl
@[simp] theorem Dev.setMark_free (d : Dev) (q : Nat) (b : Bool) : (d.setMark q b).free = d.free := rfl

@[simp] theorem Dev.setHbmUps_thr (d : Dev) (l : Nat) (u : List Nat) : (d.setHbmUps l u).thr = d.thr := rfl
@[simp] theorem Dev.setHbmUps_clu (d : Dev) (l : Nat) (u : List Nat) : (d.setHbmUps l u).clu = d.clu := rfl
@[simp] theorem Dev.setHbmUps_btb (d : Dev) (l : Nat) (u : List Nat) : (d.setHbmUps l u).btb = d.btb := rfl
@[simp] theorem Dev.setHbmUps_ctl (d : Dev) (l : Nat) (u : List Nat) : (d.setHbmUps l u).ctl = d.ctl := rfl
@[simp] theorem Dev.setHbmUps_rpt (d : Dev) (l : Nat) (u : List Nat) : (d.setHbmUps l u).rpt = d.rpt := rfl
@[simp] theorem Dev.setHbmUps_gated (d : Dev) (l : Nat) (u : List Nat) : (d.setHbmUps l u).gated = d.gated := rfl
@[simp] theorem Dev.setHbmUps_trg (d : Dev) (l : Nat) (u : List Nat) : (d.setHbmUps l u).trg = d.trg := rfl
@[simp] theorem Dev.setHbmUps_hub (d : Dev) (l : Nat) (u : List Nat) : (d.setHbmUps l u).hub = d.hub := rfl
@[simp] theorem Dev.setHbmUps_yard (d : Dev) (l : Nat) (u : List Nat) : (d.setHbmUps l u).yard = d.yard := rfl
@[simp] theorem Dev.setHbmUps_jnl (d : Dev) (l : Nat) (u : List Nat) : (d.setHbmUps l u).jnl = d.jnl := rfl
@[simp] theorem Dev.setHbmUps_ring (d : Dev) (l : Nat) (u : List Nat) : (d.setHbmUps l u).ring = d.ring := rfl
@[simp] theorem Dev.setHbmUps_tt (d : Dev) (l : Nat) (u : List Nat) : (d.setHbmUps l u).tt = d.tt := rfl
@[simp] theorem Dev.setHbmUps_box (d : Dev) (l : Nat) (u : List Nat) : (d.setHbmUps l u).box = d.box := rfl
@[simp] theorem Dev.setHbmUps_tod (d : Dev) (l : Nat) (u : List Nat) : (d.setHbmUps l u).tod = d.tod := rfl
@[simp] theorem Dev.setHbmUps_edges (d : Dev) (l : Nat) (u : List Nat) : (d.setHbmUps l u).edges = d.edges := rfl
@[simp] theorem Dev.setHbmUps_out (d : Dev) (l : Nat) (u : List Nat) : (d.setHbmUps l u).out = d.out := rfl
@[simp] theorem Dev.setHbmUps_free (d : Dev) (l : Nat) (u : List Nat) : (d.setHbmUps l u).free = d.free := rfl

@[simp] theorem Dev.setSramUps_thr (d : Dev) (w : Nat) (u : List Nat) : (d.setSramUps w u).thr = d.thr := rfl
@[simp] theorem Dev.setSramUps_clu (d : Dev) (w : Nat) (u : List Nat) : (d.setSramUps w u).clu = d.clu := rfl
@[simp] theorem Dev.setSramUps_btb (d : Dev) (w : Nat) (u : List Nat) : (d.setSramUps w u).btb = d.btb := rfl
@[simp] theorem Dev.setSramUps_ctl (d : Dev) (w : Nat) (u : List Nat) : (d.setSramUps w u).ctl = d.ctl := rfl
@[simp] theorem Dev.setSramUps_rpt (d : Dev) (w : Nat) (u : List Nat) : (d.setSramUps w u).rpt = d.rpt := rfl
@[simp] theorem Dev.setSramUps_gated (d : Dev) (w : Nat) (u : List Nat) : (d.setSramUps w u).gated = d.gated := rfl
@[simp] theorem Dev.setSramUps_trg (d : Dev) (w : Nat) (u : List Nat) : (d.setSramUps w u).trg = d.trg := rfl
@[simp] theorem Dev.setSramUps_hub (d : Dev) (w : Nat) (u : List Nat) : (d.setSramUps w u).hub = d.hub := rfl
@[simp] theorem Dev.setSramUps_yard (d : Dev) (w : Nat) (u : List Nat) : (d.setSramUps w u).yard = d.yard := rfl
@[simp] theorem Dev.setSramUps_jnl (d : Dev) (w : Nat) (u : List Nat) : (d.setSramUps w u).jnl = d.jnl := rfl
@[simp] theorem Dev.setSramUps_ring (d : Dev) (w : Nat) (u : List Nat) : (d.setSramUps w u).ring = d.ring := rfl
@[simp] theorem Dev.setSramUps_tt (d : Dev) (w : Nat) (u : List Nat) : (d.setSramUps w u).tt = d.tt := rfl
@[simp] theorem Dev.setSramUps_box (d : Dev) (w : Nat) (u : List Nat) : (d.setSramUps w u).box = d.box := rfl
@[simp] theorem Dev.setSramUps_tod (d : Dev) (w : Nat) (u : List Nat) : (d.setSramUps w u).tod = d.tod := rfl
@[simp] theorem Dev.setSramUps_edges (d : Dev) (w : Nat) (u : List Nat) : (d.setSramUps w u).edges = d.edges := rfl
@[simp] theorem Dev.setSramUps_out (d : Dev) (w : Nat) (u : List Nat) : (d.setSramUps w u).out = d.out := rfl
@[simp] theorem Dev.setSramUps_free (d : Dev) (w : Nat) (u : List Nat) : (d.setSramUps w u).free = d.free := rfl

@[simp] theorem Dev.setRpt_thr (d : Dev) (i : Nat) (e : RptEntry) : (d.setRpt i e).thr = d.thr := rfl
@[simp] theorem Dev.setRpt_clu (d : Dev) (i : Nat) (e : RptEntry) : (d.setRpt i e).clu = d.clu := rfl
@[simp] theorem Dev.setRpt_btb (d : Dev) (i : Nat) (e : RptEntry) : (d.setRpt i e).btb = d.btb := rfl
@[simp] theorem Dev.setRpt_mem (d : Dev) (i : Nat) (e : RptEntry) : (d.setRpt i e).mem = d.mem := rfl
@[simp] theorem Dev.setRpt_ctl (d : Dev) (i : Nat) (e : RptEntry) : (d.setRpt i e).ctl = d.ctl := rfl
@[simp] theorem Dev.setRpt_gated (d : Dev) (i : Nat) (e : RptEntry) : (d.setRpt i e).gated = d.gated := rfl
@[simp] theorem Dev.setRpt_trg (d : Dev) (i : Nat) (e : RptEntry) : (d.setRpt i e).trg = d.trg := rfl
@[simp] theorem Dev.setRpt_hub (d : Dev) (i : Nat) (e : RptEntry) : (d.setRpt i e).hub = d.hub := rfl
@[simp] theorem Dev.setRpt_yard (d : Dev) (i : Nat) (e : RptEntry) : (d.setRpt i e).yard = d.yard := rfl
@[simp] theorem Dev.setRpt_jnl (d : Dev) (i : Nat) (e : RptEntry) : (d.setRpt i e).jnl = d.jnl := rfl
@[simp] theorem Dev.setRpt_ring (d : Dev) (i : Nat) (e : RptEntry) : (d.setRpt i e).ring = d.ring := rfl
@[simp] theorem Dev.setRpt_tt (d : Dev) (i : Nat) (e : RptEntry) : (d.setRpt i e).tt = d.tt := rfl
@[simp] theorem Dev.setRpt_box (d : Dev) (i : Nat) (e : RptEntry) : (d.setRpt i e).box = d.box := rfl
@[simp] theorem Dev.setRpt_tod (d : Dev) (i : Nat) (e : RptEntry) : (d.setRpt i e).tod = d.tod := rfl
@[simp] theorem Dev.setRpt_edges (d : Dev) (i : Nat) (e : RptEntry) : (d.setRpt i e).edges = d.edges := rfl
@[simp] theorem Dev.setRpt_out (d : Dev) (i : Nat) (e : RptEntry) : (d.setRpt i e).out = d.out := rfl
@[simp] theorem Dev.setRpt_free (d : Dev) (i : Nat) (e : RptEntry) : (d.setRpt i e).free = d.free := rfl

@[simp] theorem Dev.withTrg_thr (d : Dev) (f : Trg → Trg) : (d.withTrg f).thr = d.thr := rfl
@[simp] theorem Dev.withTrg_clu (d : Dev) (f : Trg → Trg) : (d.withTrg f).clu = d.clu := rfl
@[simp] theorem Dev.withTrg_btb (d : Dev) (f : Trg → Trg) : (d.withTrg f).btb = d.btb := rfl
@[simp] theorem Dev.withTrg_mem (d : Dev) (f : Trg → Trg) : (d.withTrg f).mem = d.mem := rfl
@[simp] theorem Dev.withTrg_ctl (d : Dev) (f : Trg → Trg) : (d.withTrg f).ctl = d.ctl := rfl
@[simp] theorem Dev.withTrg_rpt (d : Dev) (f : Trg → Trg) : (d.withTrg f).rpt = d.rpt := rfl
@[simp] theorem Dev.withTrg_gated (d : Dev) (f : Trg → Trg) : (d.withTrg f).gated = d.gated := rfl
@[simp] theorem Dev.withTrg_hub (d : Dev) (f : Trg → Trg) : (d.withTrg f).hub = d.hub := rfl
@[simp] theorem Dev.withTrg_yard (d : Dev) (f : Trg → Trg) : (d.withTrg f).yard = d.yard := rfl
@[simp] theorem Dev.withTrg_jnl (d : Dev) (f : Trg → Trg) : (d.withTrg f).jnl = d.jnl := rfl
@[simp] theorem Dev.withTrg_ring (d : Dev) (f : Trg → Trg) : (d.withTrg f).ring = d.ring := rfl
@[simp] theorem Dev.withTrg_tt (d : Dev) (f : Trg → Trg) : (d.withTrg f).tt = d.tt := rfl
@[simp] theorem Dev.withTrg_box (d : Dev) (f : Trg → Trg) : (d.withTrg f).box = d.box := rfl
@[simp] theorem Dev.withTrg_tod (d : Dev) (f : Trg → Trg) : (d.withTrg f).tod = d.tod := rfl
@[simp] theorem Dev.withTrg_edges (d : Dev) (f : Trg → Trg) : (d.withTrg f).edges = d.edges := rfl
@[simp] theorem Dev.withTrg_out (d : Dev) (f : Trg → Trg) : (d.withTrg f).out = d.out := rfl
@[simp] theorem Dev.withTrg_free (d : Dev) (f : Trg → Trg) : (d.withTrg f).free = d.free := rfl

@[simp] theorem Dev.withBox_thr (d : Dev) (f : SigBox → SigBox) : (d.withBox f).thr = d.thr := rfl
@[simp] theorem Dev.withBox_clu (d : Dev) (f : SigBox → SigBox) : (d.withBox f).clu = d.clu := rfl
@[simp] theorem Dev.withBox_btb (d : Dev) (f : SigBox → SigBox) : (d.withBox f).btb = d.btb := rfl
@[simp] theorem Dev.withBox_mem (d : Dev) (f : SigBox → SigBox) : (d.withBox f).mem = d.mem := rfl
@[simp] theorem Dev.withBox_ctl (d : Dev) (f : SigBox → SigBox) : (d.withBox f).ctl = d.ctl := rfl
@[simp] theorem Dev.withBox_rpt (d : Dev) (f : SigBox → SigBox) : (d.withBox f).rpt = d.rpt := rfl
@[simp] theorem Dev.withBox_gated (d : Dev) (f : SigBox → SigBox) : (d.withBox f).gated = d.gated := rfl
@[simp] theorem Dev.withBox_trg (d : Dev) (f : SigBox → SigBox) : (d.withBox f).trg = d.trg := rfl
@[simp] theorem Dev.withBox_hub (d : Dev) (f : SigBox → SigBox) : (d.withBox f).hub = d.hub := rfl
@[simp] theorem Dev.withBox_yard (d : Dev) (f : SigBox → SigBox) : (d.withBox f).yard = d.yard := rfl
@[simp] theorem Dev.withBox_jnl (d : Dev) (f : SigBox → SigBox) : (d.withBox f).jnl = d.jnl := rfl
@[simp] theorem Dev.withBox_ring (d : Dev) (f : SigBox → SigBox) : (d.withBox f).ring = d.ring := rfl
@[simp] theorem Dev.withBox_tt (d : Dev) (f : SigBox → SigBox) : (d.withBox f).tt = d.tt := rfl
@[simp] theorem Dev.withBox_tod (d : Dev) (f : SigBox → SigBox) : (d.withBox f).tod = d.tod := rfl
@[simp] theorem Dev.withBox_edges (d : Dev) (f : SigBox → SigBox) : (d.withBox f).edges = d.edges := rfl
@[simp] theorem Dev.withBox_out (d : Dev) (f : SigBox → SigBox) : (d.withBox f).out = d.out := rfl
@[simp] theorem Dev.withBox_free (d : Dev) (f : SigBox → SigBox) : (d.withBox f).free = d.free := rfl

@[simp] theorem Dev.withHub_thr (d : Dev) (f : Hub → Hub) : (d.withHub f).thr = d.thr := rfl
@[simp] theorem Dev.withHub_clu (d : Dev) (f : Hub → Hub) : (d.withHub f).clu = d.clu := rfl
@[simp] theorem Dev.withHub_btb (d : Dev) (f : Hub → Hub) : (d.withHub f).btb = d.btb := rfl
@[simp] theorem Dev.withHub_mem (d : Dev) (f : Hub → Hub) : (d.withHub f).mem = d.mem := rfl
@[simp] theorem Dev.withHub_ctl (d : Dev) (f : Hub → Hub) : (d.withHub f).ctl = d.ctl := rfl
@[simp] theorem Dev.withHub_rpt (d : Dev) (f : Hub → Hub) : (d.withHub f).rpt = d.rpt := rfl
@[simp] theorem Dev.withHub_gated (d : Dev) (f : Hub → Hub) : (d.withHub f).gated = d.gated := rfl
@[simp] theorem Dev.withHub_trg (d : Dev) (f : Hub → Hub) : (d.withHub f).trg = d.trg := rfl
@[simp] theorem Dev.withHub_yard (d : Dev) (f : Hub → Hub) : (d.withHub f).yard = d.yard := rfl
@[simp] theorem Dev.withHub_jnl (d : Dev) (f : Hub → Hub) : (d.withHub f).jnl = d.jnl := rfl
@[simp] theorem Dev.withHub_ring (d : Dev) (f : Hub → Hub) : (d.withHub f).ring = d.ring := rfl
@[simp] theorem Dev.withHub_tt (d : Dev) (f : Hub → Hub) : (d.withHub f).tt = d.tt := rfl
@[simp] theorem Dev.withHub_box (d : Dev) (f : Hub → Hub) : (d.withHub f).box = d.box := rfl
@[simp] theorem Dev.withHub_tod (d : Dev) (f : Hub → Hub) : (d.withHub f).tod = d.tod := rfl
@[simp] theorem Dev.withHub_edges (d : Dev) (f : Hub → Hub) : (d.withHub f).edges = d.edges := rfl
@[simp] theorem Dev.withHub_out (d : Dev) (f : Hub → Hub) : (d.withHub f).out = d.out := rfl
@[simp] theorem Dev.withHub_free (d : Dev) (f : Hub → Hub) : (d.withHub f).free = d.free := rfl

@[simp] theorem Dev.withYard_thr (d : Dev) (f : Yard → Yard) : (d.withYard f).thr = d.thr := rfl
@[simp] theorem Dev.withYard_clu (d : Dev) (f : Yard → Yard) : (d.withYard f).clu = d.clu := rfl
@[simp] theorem Dev.withYard_btb (d : Dev) (f : Yard → Yard) : (d.withYard f).btb = d.btb := rfl
@[simp] theorem Dev.withYard_mem (d : Dev) (f : Yard → Yard) : (d.withYard f).mem = d.mem := rfl
@[simp] theorem Dev.withYard_ctl (d : Dev) (f : Yard → Yard) : (d.withYard f).ctl = d.ctl := rfl
@[simp] theorem Dev.withYard_rpt (d : Dev) (f : Yard → Yard) : (d.withYard f).rpt = d.rpt := rfl
@[simp] theorem Dev.withYard_gated (d : Dev) (f : Yard → Yard) : (d.withYard f).gated = d.gated := rfl
@[simp] theorem Dev.withYard_trg (d : Dev) (f : Yard → Yard) : (d.withYard f).trg = d.trg := rfl
@[simp] theorem Dev.withYard_hub (d : Dev) (f : Yard → Yard) : (d.withYard f).hub = d.hub := rfl
@[simp] theorem Dev.withYard_jnl (d : Dev) (f : Yard → Yard) : (d.withYard f).jnl = d.jnl := rfl
@[simp] theorem Dev.withYard_ring (d : Dev) (f : Yard → Yard) : (d.withYard f).ring = d.ring := rfl
@[simp] theorem Dev.withYard_tt (d : Dev) (f : Yard → Yard) : (d.withYard f).tt = d.tt := rfl
@[simp] theorem Dev.withYard_box (d : Dev) (f : Yard → Yard) : (d.withYard f).box = d.box := rfl
@[simp] theorem Dev.withYard_tod (d : Dev) (f : Yard → Yard) : (d.withYard f).tod = d.tod := rfl
@[simp] theorem Dev.withYard_edges (d : Dev) (f : Yard → Yard) : (d.withYard f).edges = d.edges := rfl
@[simp] theorem Dev.withYard_out (d : Dev) (f : Yard → Yard) : (d.withYard f).out = d.out := rfl
@[simp] theorem Dev.withYard_free (d : Dev) (f : Yard → Yard) : (d.withYard f).free = d.free := rfl

@[simp] theorem Dev.withJnl_thr (d : Dev) (f : Jnl → Jnl) : (d.withJnl f).thr = d.thr := rfl
@[simp] theorem Dev.withJnl_clu (d : Dev) (f : Jnl → Jnl) : (d.withJnl f).clu = d.clu := rfl
@[simp] theorem Dev.withJnl_btb (d : Dev) (f : Jnl → Jnl) : (d.withJnl f).btb = d.btb := rfl
@[simp] theorem Dev.withJnl_mem (d : Dev) (f : Jnl → Jnl) : (d.withJnl f).mem = d.mem := rfl
@[simp] theorem Dev.withJnl_ctl (d : Dev) (f : Jnl → Jnl) : (d.withJnl f).ctl = d.ctl := rfl
@[simp] theorem Dev.withJnl_rpt (d : Dev) (f : Jnl → Jnl) : (d.withJnl f).rpt = d.rpt := rfl
@[simp] theorem Dev.withJnl_gated (d : Dev) (f : Jnl → Jnl) : (d.withJnl f).gated = d.gated := rfl
@[simp] theorem Dev.withJnl_trg (d : Dev) (f : Jnl → Jnl) : (d.withJnl f).trg = d.trg := rfl
@[simp] theorem Dev.withJnl_hub (d : Dev) (f : Jnl → Jnl) : (d.withJnl f).hub = d.hub := rfl
@[simp] theorem Dev.withJnl_yard (d : Dev) (f : Jnl → Jnl) : (d.withJnl f).yard = d.yard := rfl
@[simp] theorem Dev.withJnl_ring (d : Dev) (f : Jnl → Jnl) : (d.withJnl f).ring = d.ring := rfl
@[simp] theorem Dev.withJnl_tt (d : Dev) (f : Jnl → Jnl) : (d.withJnl f).tt = d.tt := rfl
@[simp] theorem Dev.withJnl_box (d : Dev) (f : Jnl → Jnl) : (d.withJnl f).box = d.box := rfl
@[simp] theorem Dev.withJnl_tod (d : Dev) (f : Jnl → Jnl) : (d.withJnl f).tod = d.tod := rfl
@[simp] theorem Dev.withJnl_edges (d : Dev) (f : Jnl → Jnl) : (d.withJnl f).edges = d.edges := rfl
@[simp] theorem Dev.withJnl_out (d : Dev) (f : Jnl → Jnl) : (d.withJnl f).out = d.out := rfl
@[simp] theorem Dev.withJnl_free (d : Dev) (f : Jnl → Jnl) : (d.withJnl f).free = d.free := rfl

@[simp] theorem Dev.withRing_thr (d : Dev) (f : Ring → Ring) : (d.withRing f).thr = d.thr := rfl
@[simp] theorem Dev.withRing_clu (d : Dev) (f : Ring → Ring) : (d.withRing f).clu = d.clu := rfl
@[simp] theorem Dev.withRing_btb (d : Dev) (f : Ring → Ring) : (d.withRing f).btb = d.btb := rfl
@[simp] theorem Dev.withRing_mem (d : Dev) (f : Ring → Ring) : (d.withRing f).mem = d.mem := rfl
@[simp] theorem Dev.withRing_ctl (d : Dev) (f : Ring → Ring) : (d.withRing f).ctl = d.ctl := rfl
@[simp] theorem Dev.withRing_rpt (d : Dev) (f : Ring → Ring) : (d.withRing f).rpt = d.rpt := rfl
@[simp] theorem Dev.withRing_gated (d : Dev) (f : Ring → Ring) : (d.withRing f).gated = d.gated := rfl
@[simp] theorem Dev.withRing_trg (d : Dev) (f : Ring → Ring) : (d.withRing f).trg = d.trg := rfl
@[simp] theorem Dev.withRing_hub (d : Dev) (f : Ring → Ring) : (d.withRing f).hub = d.hub := rfl
@[simp] theorem Dev.withRing_yard (d : Dev) (f : Ring → Ring) : (d.withRing f).yard = d.yard := rfl
@[simp] theorem Dev.withRing_jnl (d : Dev) (f : Ring → Ring) : (d.withRing f).jnl = d.jnl := rfl
@[simp] theorem Dev.withRing_tt (d : Dev) (f : Ring → Ring) : (d.withRing f).tt = d.tt := rfl
@[simp] theorem Dev.withRing_box (d : Dev) (f : Ring → Ring) : (d.withRing f).box = d.box := rfl
@[simp] theorem Dev.withRing_tod (d : Dev) (f : Ring → Ring) : (d.withRing f).tod = d.tod := rfl
@[simp] theorem Dev.withRing_edges (d : Dev) (f : Ring → Ring) : (d.withRing f).edges = d.edges := rfl
@[simp] theorem Dev.withRing_out (d : Dev) (f : Ring → Ring) : (d.withRing f).out = d.out := rfl
@[simp] theorem Dev.withRing_free (d : Dev) (f : Ring → Ring) : (d.withRing f).free = d.free := rfl

@[simp] theorem Dev.withReplay_thr (d : Dev) (f : Replay → Replay) : (d.withReplay f).thr = d.thr := rfl
@[simp] theorem Dev.withReplay_clu (d : Dev) (f : Replay → Replay) : (d.withReplay f).clu = d.clu := rfl
@[simp] theorem Dev.withReplay_btb (d : Dev) (f : Replay → Replay) : (d.withReplay f).btb = d.btb := rfl
@[simp] theorem Dev.withReplay_mem (d : Dev) (f : Replay → Replay) : (d.withReplay f).mem = d.mem := rfl
@[simp] theorem Dev.withReplay_ctl (d : Dev) (f : Replay → Replay) : (d.withReplay f).ctl = d.ctl := rfl
@[simp] theorem Dev.withReplay_rpt (d : Dev) (f : Replay → Replay) : (d.withReplay f).rpt = d.rpt := rfl
@[simp] theorem Dev.withReplay_gated (d : Dev) (f : Replay → Replay) : (d.withReplay f).gated = d.gated := rfl
@[simp] theorem Dev.withReplay_hub (d : Dev) (f : Replay → Replay) : (d.withReplay f).hub = d.hub := rfl
@[simp] theorem Dev.withReplay_yard (d : Dev) (f : Replay → Replay) : (d.withReplay f).yard = d.yard := rfl
@[simp] theorem Dev.withReplay_jnl (d : Dev) (f : Replay → Replay) : (d.withReplay f).jnl = d.jnl := rfl
@[simp] theorem Dev.withReplay_ring (d : Dev) (f : Replay → Replay) : (d.withReplay f).ring = d.ring := rfl
@[simp] theorem Dev.withReplay_tt (d : Dev) (f : Replay → Replay) : (d.withReplay f).tt = d.tt := rfl
@[simp] theorem Dev.withReplay_box (d : Dev) (f : Replay → Replay) : (d.withReplay f).box = d.box := rfl
@[simp] theorem Dev.withReplay_tod (d : Dev) (f : Replay → Replay) : (d.withReplay f).tod = d.tod := rfl
@[simp] theorem Dev.withReplay_edges (d : Dev) (f : Replay → Replay) : (d.withReplay f).edges = d.edges := rfl
@[simp] theorem Dev.withReplay_out (d : Dev) (f : Replay → Replay) : (d.withReplay f).out = d.out := rfl
@[simp] theorem Dev.withReplay_free (d : Dev) (f : Replay → Replay) : (d.withReplay f).free = d.free := rfl

@[simp] theorem Dev.setQueue_thr (d : Dev) (q : Nat) (x : QDesc) : (d.setQueue q x).thr = d.thr := rfl
@[simp] theorem Dev.setQueue_clu (d : Dev) (q : Nat) (x : QDesc) : (d.setQueue q x).clu = d.clu := rfl
@[simp] theorem Dev.setQueue_btb (d : Dev) (q : Nat) (x : QDesc) : (d.setQueue q x).btb = d.btb := rfl
@[simp] theorem Dev.setQueue_mem (d : Dev) (q : Nat) (x : QDesc) : (d.setQueue q x).mem = d.mem := rfl
@[simp] theorem Dev.setQueue_ctl (d : Dev) (q : Nat) (x : QDesc) : (d.setQueue q x).ctl = d.ctl := rfl
@[simp] theorem Dev.setQueue_rpt (d : Dev) (q : Nat) (x : QDesc) : (d.setQueue q x).rpt = d.rpt := rfl
@[simp] theorem Dev.setQueue_gated (d : Dev) (q : Nat) (x : QDesc) : (d.setQueue q x).gated = d.gated := rfl
@[simp] theorem Dev.setQueue_trg (d : Dev) (q : Nat) (x : QDesc) : (d.setQueue q x).trg = d.trg := rfl
@[simp] theorem Dev.setQueue_yard (d : Dev) (q : Nat) (x : QDesc) : (d.setQueue q x).yard = d.yard := rfl
@[simp] theorem Dev.setQueue_jnl (d : Dev) (q : Nat) (x : QDesc) : (d.setQueue q x).jnl = d.jnl := rfl
@[simp] theorem Dev.setQueue_ring (d : Dev) (q : Nat) (x : QDesc) : (d.setQueue q x).ring = d.ring := rfl
@[simp] theorem Dev.setQueue_tt (d : Dev) (q : Nat) (x : QDesc) : (d.setQueue q x).tt = d.tt := rfl
@[simp] theorem Dev.setQueue_box (d : Dev) (q : Nat) (x : QDesc) : (d.setQueue q x).box = d.box := rfl
@[simp] theorem Dev.setQueue_tod (d : Dev) (q : Nat) (x : QDesc) : (d.setQueue q x).tod = d.tod := rfl
@[simp] theorem Dev.setQueue_edges (d : Dev) (q : Nat) (x : QDesc) : (d.setQueue q x).edges = d.edges := rfl
@[simp] theorem Dev.setQueue_out (d : Dev) (q : Nat) (x : QDesc) : (d.setQueue q x).out = d.out := rfl
@[simp] theorem Dev.setQueue_free (d : Dev) (q : Nat) (x : QDesc) : (d.setQueue q x).free = d.free := rfl

@[simp] theorem Dev.setTrack_thr (d : Dev) (t : Nat) (x : Track) : (d.setTrack t x).thr = d.thr := rfl
@[simp] theorem Dev.setTrack_clu (d : Dev) (t : Nat) (x : Track) : (d.setTrack t x).clu = d.clu := rfl
@[simp] theorem Dev.setTrack_btb (d : Dev) (t : Nat) (x : Track) : (d.setTrack t x).btb = d.btb := rfl
@[simp] theorem Dev.setTrack_mem (d : Dev) (t : Nat) (x : Track) : (d.setTrack t x).mem = d.mem := rfl
@[simp] theorem Dev.setTrack_ctl (d : Dev) (t : Nat) (x : Track) : (d.setTrack t x).ctl = d.ctl := rfl
@[simp] theorem Dev.setTrack_rpt (d : Dev) (t : Nat) (x : Track) : (d.setTrack t x).rpt = d.rpt := rfl
@[simp] theorem Dev.setTrack_gated (d : Dev) (t : Nat) (x : Track) : (d.setTrack t x).gated = d.gated := rfl
@[simp] theorem Dev.setTrack_trg (d : Dev) (t : Nat) (x : Track) : (d.setTrack t x).trg = d.trg := rfl
@[simp] theorem Dev.setTrack_hub (d : Dev) (t : Nat) (x : Track) : (d.setTrack t x).hub = d.hub := rfl
@[simp] theorem Dev.setTrack_jnl (d : Dev) (t : Nat) (x : Track) : (d.setTrack t x).jnl = d.jnl := rfl
@[simp] theorem Dev.setTrack_ring (d : Dev) (t : Nat) (x : Track) : (d.setTrack t x).ring = d.ring := rfl
@[simp] theorem Dev.setTrack_tt (d : Dev) (t : Nat) (x : Track) : (d.setTrack t x).tt = d.tt := rfl
@[simp] theorem Dev.setTrack_box (d : Dev) (t : Nat) (x : Track) : (d.setTrack t x).box = d.box := rfl
@[simp] theorem Dev.setTrack_tod (d : Dev) (t : Nat) (x : Track) : (d.setTrack t x).tod = d.tod := rfl
@[simp] theorem Dev.setTrack_edges (d : Dev) (t : Nat) (x : Track) : (d.setTrack t x).edges = d.edges := rfl
@[simp] theorem Dev.setTrack_out (d : Dev) (t : Nat) (x : Track) : (d.setTrack t x).out = d.out := rfl
@[simp] theorem Dev.setTrack_free (d : Dev) (t : Nat) (x : Track) : (d.setTrack t x).free = d.free := rfl

@[simp] theorem Dev.setTimer_thr (d : Dev) (i : Nat) (t : Timer) : (d.setTimer i t).thr = d.thr := rfl
@[simp] theorem Dev.setTimer_clu (d : Dev) (i : Nat) (t : Timer) : (d.setTimer i t).clu = d.clu := rfl
@[simp] theorem Dev.setTimer_btb (d : Dev) (i : Nat) (t : Timer) : (d.setTimer i t).btb = d.btb := rfl
@[simp] theorem Dev.setTimer_mem (d : Dev) (i : Nat) (t : Timer) : (d.setTimer i t).mem = d.mem := rfl
@[simp] theorem Dev.setTimer_ctl (d : Dev) (i : Nat) (t : Timer) : (d.setTimer i t).ctl = d.ctl := rfl
@[simp] theorem Dev.setTimer_rpt (d : Dev) (i : Nat) (t : Timer) : (d.setTimer i t).rpt = d.rpt := rfl
@[simp] theorem Dev.setTimer_gated (d : Dev) (i : Nat) (t : Timer) : (d.setTimer i t).gated = d.gated := rfl
@[simp] theorem Dev.setTimer_trg (d : Dev) (i : Nat) (t : Timer) : (d.setTimer i t).trg = d.trg := rfl
@[simp] theorem Dev.setTimer_hub (d : Dev) (i : Nat) (t : Timer) : (d.setTimer i t).hub = d.hub := rfl
@[simp] theorem Dev.setTimer_yard (d : Dev) (i : Nat) (t : Timer) : (d.setTimer i t).yard = d.yard := rfl
@[simp] theorem Dev.setTimer_jnl (d : Dev) (i : Nat) (t : Timer) : (d.setTimer i t).jnl = d.jnl := rfl
@[simp] theorem Dev.setTimer_ring (d : Dev) (i : Nat) (t : Timer) : (d.setTimer i t).ring = d.ring := rfl
@[simp] theorem Dev.setTimer_tt (d : Dev) (i : Nat) (t : Timer) : (d.setTimer i t).tt = d.tt := rfl
@[simp] theorem Dev.setTimer_tod (d : Dev) (i : Nat) (t : Timer) : (d.setTimer i t).tod = d.tod := rfl
@[simp] theorem Dev.setTimer_edges (d : Dev) (i : Nat) (t : Timer) : (d.setTimer i t).edges = d.edges := rfl
@[simp] theorem Dev.setTimer_out (d : Dev) (i : Nat) (t : Timer) : (d.setTimer i t).out = d.out := rfl
@[simp] theorem Dev.setTimer_free (d : Dev) (i : Nat) (t : Timer) : (d.setTimer i t).free = d.free := rfl

@[simp] theorem Dev.setRwe_thr (d : Dev) (o : Nat) (v : Option Word) : (d.setRwe o v).thr = d.thr := rfl
@[simp] theorem Dev.setRwe_clu (d : Dev) (o : Nat) (v : Option Word) : (d.setRwe o v).clu = d.clu := rfl
@[simp] theorem Dev.setRwe_btb (d : Dev) (o : Nat) (v : Option Word) : (d.setRwe o v).btb = d.btb := rfl
@[simp] theorem Dev.setRwe_mem (d : Dev) (o : Nat) (v : Option Word) : (d.setRwe o v).mem = d.mem := rfl
@[simp] theorem Dev.setRwe_ctl (d : Dev) (o : Nat) (v : Option Word) : (d.setRwe o v).ctl = d.ctl := rfl
@[simp] theorem Dev.setRwe_rpt (d : Dev) (o : Nat) (v : Option Word) : (d.setRwe o v).rpt = d.rpt := rfl
@[simp] theorem Dev.setRwe_gated (d : Dev) (o : Nat) (v : Option Word) : (d.setRwe o v).gated = d.gated := rfl
@[simp] theorem Dev.setRwe_trg (d : Dev) (o : Nat) (v : Option Word) : (d.setRwe o v).trg = d.trg := rfl
@[simp] theorem Dev.setRwe_hub (d : Dev) (o : Nat) (v : Option Word) : (d.setRwe o v).hub = d.hub := rfl
@[simp] theorem Dev.setRwe_yard (d : Dev) (o : Nat) (v : Option Word) : (d.setRwe o v).yard = d.yard := rfl
@[simp] theorem Dev.setRwe_jnl (d : Dev) (o : Nat) (v : Option Word) : (d.setRwe o v).jnl = d.jnl := rfl
@[simp] theorem Dev.setRwe_ring (d : Dev) (o : Nat) (v : Option Word) : (d.setRwe o v).ring = d.ring := rfl
@[simp] theorem Dev.setRwe_tt (d : Dev) (o : Nat) (v : Option Word) : (d.setRwe o v).tt = d.tt := rfl
@[simp] theorem Dev.setRwe_tod (d : Dev) (o : Nat) (v : Option Word) : (d.setRwe o v).tod = d.tod := rfl
@[simp] theorem Dev.setRwe_edges (d : Dev) (o : Nat) (v : Option Word) : (d.setRwe o v).edges = d.edges := rfl
@[simp] theorem Dev.setRwe_out (d : Dev) (o : Nat) (v : Option Word) : (d.setRwe o v).out = d.out := rfl
@[simp] theorem Dev.setRwe_free (d : Dev) (o : Nat) (v : Option Word) : (d.setRwe o v).free = d.free := rfl

@[simp] theorem Dev.draw_thr (d : Dev) : d.draw.2.thr = d.thr := rfl
@[simp] theorem Dev.draw_clu (d : Dev) : d.draw.2.clu = d.clu := rfl
@[simp] theorem Dev.draw_btb (d : Dev) : d.draw.2.btb = d.btb := rfl
@[simp] theorem Dev.draw_mem (d : Dev) : d.draw.2.mem = d.mem := rfl
@[simp] theorem Dev.draw_ctl (d : Dev) : d.draw.2.ctl = d.ctl := rfl
@[simp] theorem Dev.draw_rpt (d : Dev) : d.draw.2.rpt = d.rpt := rfl
@[simp] theorem Dev.draw_gated (d : Dev) : d.draw.2.gated = d.gated := rfl
@[simp] theorem Dev.draw_trg (d : Dev) : d.draw.2.trg = d.trg := rfl
@[simp] theorem Dev.draw_hub (d : Dev) : d.draw.2.hub = d.hub := rfl
@[simp] theorem Dev.draw_yard (d : Dev) : d.draw.2.yard = d.yard := rfl
@[simp] theorem Dev.draw_jnl (d : Dev) : d.draw.2.jnl = d.jnl := rfl
@[simp] theorem Dev.draw_ring (d : Dev) : d.draw.2.ring = d.ring := rfl
@[simp] theorem Dev.draw_tt (d : Dev) : d.draw.2.tt = d.tt := rfl
@[simp] theorem Dev.draw_box (d : Dev) : d.draw.2.box = d.box := rfl
@[simp] theorem Dev.draw_tod (d : Dev) : d.draw.2.tod = d.tod := rfl
@[simp] theorem Dev.draw_edges (d : Dev) : d.draw.2.edges = d.edges := rfl
@[simp] theorem Dev.draw_out (d : Dev) : d.draw.2.out = d.out := rfl

@[simp] theorem Dev.withTrg_own (d : Dev) (f : Trg → Trg) : (d.withTrg f).trg = f d.trg := rfl
@[simp] theorem Dev.withBox_own (d : Dev) (f : SigBox → SigBox) : (d.withBox f).box = f d.box := rfl
@[simp] theorem Dev.withHub_own (d : Dev) (f : Hub → Hub) : (d.withHub f).hub = f d.hub := rfl
@[simp] theorem Dev.withYard_own (d : Dev) (f : Yard → Yard) : (d.withYard f).yard = f d.yard := rfl
@[simp] theorem Dev.withJnl_own (d : Dev) (f : Jnl → Jnl) : (d.withJnl f).jnl = f d.jnl := rfl
@[simp] theorem Dev.withRing_own (d : Dev) (f : Ring → Ring) : (d.withRing f).ring = f d.ring := rfl

/-- What each accessor reads after each update of its own map. -/
theorem Dev.thread_setThread (d : Dev) (g h : Nat) (t : Thread) : (d.setThread g t).thread h = if h = g then t else d.thread h :=
  SMap.get_set _ _ _ _ _
@[simp] theorem Dev.thread_setThread_same (d : Dev) (g : Nat) (t : Thread) : (d.setThread g t).thread g = t := SMap.get_set_same _ _ _ _
theorem Dev.cluster_setCluster (d : Dev) (c e : Nat) (x : Cluster) : (d.setCluster c x).cluster e = if e = c then x else d.cluster e :=
  SMap.get_set _ _ _ _ _
@[simp] theorem Dev.cluster_setCluster_same (d : Dev) (c : Nat) (x : Cluster) : (d.setCluster c x).cluster c = x := SMap.get_set_same _ _ _ _
theorem Dev.reg_setReg (d : Dev) (o p : Nat) (v : Word) : (d.setReg o v).reg p = if p = o then v else d.reg p := SMap.get_set _ _ _ _ _
@[simp] theorem Dev.reg_setReg_same (d : Dev) (o : Nat) (v : Word) : (d.setReg o v).reg o = v := SMap.get_set_same _ _ _ _
theorem Dev.byteAt_setByte (d : Dev) (a b : Nat) (v : Byte) : (d.setByte a v).byteAt b = if b = a then v else d.byteAt b :=
  SMap.get_set _ _ _ _ _
theorem Dev.markOf_setMark (d : Dev) (q r : Nat) (v : Bool) : (d.setMark q v).markOf r = if r = q then v else d.markOf r :=
  SMap.get_set _ _ _ _ _
@[simp] theorem Dev.markOf_setByte (d : Dev) (a q : Nat) (v : Byte) : (d.setByte a v).markOf q = d.markOf q := rfl
@[simp] theorem Dev.byteAt_setMark (d : Dev) (a q : Nat) (v : Bool) : (d.setMark q v).byteAt a = d.byteAt a := rfl
theorem Dev.queue_setQueue (d : Dev) (q r : Nat) (x : QDesc) : (d.setQueue q x).queue r = if r = q then x else d.queue r :=
  SMap.get_set _ _ _ _ _
theorem Dev.track_setTrack (d : Dev) (t u : Nat) (x : Track) : (d.setTrack t x).track u = if u = t then x else d.track u :=
  SMap.get_set _ _ _ _ _
theorem Dev.timer_setTimer (d : Dev) (i j : Nat) (t : Timer) : (d.setTimer i t).timer j = if j = i then t else d.timer j :=
  SMap.get_set _ _ _ _ _

/-- The registers of a thread after one is written. -/
theorem Thread.physGet_physSet (t : Thread) (p q : Nat) (v : Reg) :
    (t.physSet p v).physGet q = if q = p ∧ p ≠ 0 then v else t.physGet q := by
  unfold Thread.physSet Thread.physGet
  by_cases hp : p = 0
  · simp [hp]
  · by_cases hq : q = 0
    · simp [hq, hp]; intro h; exact absurd h.symm hp
    · simp [hp, hq, SMap.get_set]
theorem Thread.freg_setFreg (t : Thread) (f h : FReg) (v : Reg) : (t.setFreg f v).freg h = if h = f then v else t.freg h := by
  unfold Thread.setFreg Thread.freg
  simp [SMap.get_set, BitVec.toNat_inj]
theorem Thread.acc_setAcc (t : Thread) (k j : DReg) (v : DAcc) : (t.setAcc k v).acc j = if j = k then v else t.acc j := by
  unfold Thread.setAcc Thread.acc
  simp [SMap.get_set, BitVec.toNat_inj]

end Sys2Proof.Machine
end

