-- ==== Sys2Proof/WellFormed.lean ====
section
/-! DEFINITION. Well-formed commands: those that name only units the device has (R12, R13, R65, R292, R525). The device can be sent no other,
and `exec` stops with a fault on any other. -/
namespace Sys2Proof.WellFormed

/-- A thread of the device, by its global identifier (R13). -/
def thread (g : Nat) : Bool := decide (g < Config.threads)

/-- An agent of the device (R433): a thread that is named must exist. -/
def agent : Agent → Bool
  | .thread g => thread g
  | _ => true

/-- A journal queue, by its number (R65, R66): local queue 24-31 of a function of a PCIe controller. -/
def journalQueue (q : Nat) : Bool := decide (4160 ≤ q ∧ q < 6272) && decide (24 ≤ (q - 4160) % 32)

end Sys2Proof.WellFormed

namespace Sys2Proof

open WellFormed

/-- Whether a command names only units the device has. -/
def Instr.wellFormed (i : Instr) : Bool :=
  match i with
  | .add g _ _ _ => thread g
  | .adc g _ _ _ => thread g
  | .sub g _ _ _ => thread g
  | .sbc g _ _ _ => thread g
  | .and g _ _ _ => thread g
  | .or g _ _ _ => thread g
  | .xor g _ _ _ => thread g
  | .andn g _ _ _ => thread g
  | .shl g _ _ _ => thread g
  | .shr g _ _ _ => thread g
  | .sar g _ _ _ => thread g
  | .mul g _ _ _ => thread g
  | .mulh g _ _ _ => thread g
  | .mulhu g _ _ _ => thread g
  | .div g _ _ _ _ => thread g
  | .divu g _ _ _ _ => thread g
  | .addi g _ _ _ => thread g
  | .subi g _ _ _ => thread g
  | .andi g _ _ _ => thread g
  | .ori g _ _ _ => thread g
  | .xori g _ _ _ => thread g
  | .movk g _ _ _ => thread g
  | .shi g _ _ _ _ => thread g
  | .ld g _ _ _ _ _ _ => thread g
  | .st g _ _ _ _ _ => thread g
  | .aadd g _ _ _ _ => thread g
  | .aswp g _ _ _ _ => thread g
  | .acas g _ _ _ _ _ => thread g
  | .aand g _ _ _ _ => thread g
  | .aor g _ _ _ _ => thread g
  | .bc g _ _ => thread g
  | .br g _ => thread g
  | .jmpr g _ => thread g
  | .callw g _ => thread g
  | .callwr g _ => thread g
  | .retw g => thread g
  | .mfs g _ _ => thread g
  | .mts g _ _ => thread g
  | .ldm g _ _ _ => thread g
  | .stm g _ _ _ => thread g
  | .loop g _ _ => thread g
  | .rep g _ _ _ => thread g
  | .dadd g _ => thread g
  | .dsub g _ => thread g
  | .dmul g _ => thread g
  | .ddiv g _ _ => thread g
  | .dcmp g _ => thread g
  | .dmac g _ _ _ => thread g
  | .dshf g _ _ _ => thread g
  | .dlda g _ _ _ _ => thread g
  | .dsta g _ _ _ _ => thread g
  | .dpack g _ _ _ _ _ _ _ => thread g
  | .dunpk g _ _ _ _ _ _ _ => thread g
  | .dcvb g _ _ _ => thread g
  | .dcvd g _ _ _ => thread g
  | .dtst g _ _ _ => thread g
  | .movs g _ _ _ _ _ _ => thread g
  | .movt g _ _ _ _ _ => thread g
  | .cmps g _ _ _ _ => thread g
  | .scan g _ _ _ _ _ => thread g
  | .sctb g _ _ _ _ _ => thread g
  | .edit g _ _ _ _ _ _ => thread g
  | .edloc g _ _ _ _ _ _ _ => thread g
  | .move g _ _ _ => thread g
  | .movte g _ _ _ => thread g
  | .ste g _ _ _ => thread g
  | .fadd g _ _ _ _ => thread g
  | .fsub g _ _ _ _ => thread g
  | .fmul g _ _ _ _ => thread g
  | .fdiv g _ _ _ _ => thread g
  | .fsqrt g _ _ _ => thread g
  | .fma g _ _ _ _ _ => thread g
  | .fcmp g _ _ _ => thread g
  | .fmov g _ _ _ => thread g
  | .fneg g _ _ _ => thread g
  | .fabs g _ _ _ => thread g
  | .fquant g _ _ _ _ => thread g
  | .fcvt g _ _ _ _ => thread g
  | .fcvti g _ _ _ _ => thread g
  | .fcvif g _ _ _ _ => thread g
  | .fmvfx g _ _ => thread g
  | .fmvxf g _ _ => thread g
  | .fbar g => thread g
  | .fld g _ _ _ _ => thread g
  | .fst g _ _ _ _ => thread g
  | .fldp g _ _ _ _ _ => thread g
  | .fstp g _ _ _ _ _ => thread g
  | .floatingOpComplete g _ => thread g
  | .scall g => thread g
  | .sret g => thread g
  | .retx g => thread g
  | .fence g => thread g
  | .release g => thread g
  | .trig g _ => thread g
  | .brk g _ => thread g
  | .hint g _ => thread g
  | .post g _ _ _ _ _ _ => thread g
  | .modeChangeCommit g => thread g
  | .instructionLineFetch g _ => thread g
  | .storeBufferDrain g => thread g
  | .exceptionEntry g => thread g
  | .interruptPending source => decide (source < 4096)
  | .interruptEntry g => thread g
  | .lineFill c _ _ _ => decide (c < Config.clusters)
  | .writeGrant c _ => decide (c < Config.clusters)
  | .lineInvalidation c _ _ => decide (c < Config.clusters)
  | .consistDispatch c => decide (c < Config.clusters)
  | .moveComplete t => decide (t < 65536)
  | .holdDrain t => decide (t < 65536)
  | .postExecute _ => true
  | .postResult _ => true
  | .recordsDatagram p _ => decide (p < 8)
  | .creditRequest p _ => decide (p < 8)
  | .arpRequest p _ _ _ _ _ => decide (p < 8)
  | .neighbourSolicitation p _ _ _ _ _ _ => decide (p < 8)
  | .frameDrop p _ => decide (p < 8)
  | .ackCoalesceExpiry _ => true
  | .recordBufferRoom => true
  | .egressAckQueueSpace => true
  | .queueDoorbell ctl func loc _ => decide (ctl < 2 ∧ func < 33 ∧ loc < 32)
  | .queueDescriptorWrite ctl func loc off _ => decide (ctl < 2 ∧ func < 33 ∧ loc < 32 ∧ off < 32)
  | .submitEntryTake ctl func loc _ _ => decide (ctl < 2 ∧ func < 33 ∧ loc < 16)
  | .journalQueueDelivery q => journalQueue q
  | .journalFrame _ _ => true
  | .stateFrame _ _ => true
  | .epochackFrame _ _ => true
  | .heartbeatFrame _ _ => true
  | .transferFrame _ _ => true
  | .outcomeFrame _ _ => true
  | .membershipFrame _ _ => true
  | .cutoverFrame _ _ => true
  | .linkackFrame _ _ => true
  | .badFrame _ _ => true
  | .linkResendTimeout _ => true
  | .linkIdle _ => true
  | .portTrained _ fibres => decide (fibres ≤ 4)
  | .portLossOfSignal _ fibres => decide (fibres ≤ 4)
  | .silenceLoss => true
  | .linkdownExpiry _ => true
  | .joinTimeout => true
  | .llWatchdog => true
  | .throughLineSwitched _ => true
  | .registerWrite a _ _ _ => agent a
  | .bitAliasWrite a _ _ => agent a
  | .interlockValueWrite a _ _ => agent a
  | .interlockTimeout _ => true
  | .cfgLockWrite a _ => agent a
  | .rwsApply => true
  | .snpGo a => agent a
  | .sync a ctl _ _ => agent a && decide (ctl < 2)
  | .identity a ctl _ _ => agent a && decide (ctl < 2)
  | .quote a ctl _ _ => agent a && decide (ctl < 2)
  | .mailboxCommandDone ctl _ => decide (ctl < 2)
  | .cfgIrtDataWrite a _ => agent a
  | .cfgSwi a _ => agent a
  | .qmKdbWrite a _ => agent a
  | .kernelQueueReset a _ => agent a
  | .pinCommand a _ _ => agent a
  | .unpinCommand a _ => agent a
  | .yrdForbidWrite a _ => agent a
  | .yrdSnapGo a _ => agent a
  | .jnlQdataWrite a _ => agent a
  | .lineUpdate a _ => agent a
  | .leave a => agent a
  | .force a _ => agent a
  | .heal a _ => agent a
  | .scrubRead _ _ => true
  | .functionLevelReset ctl f => decide (ctl < 2) && (match f with | .vf n => decide (1 ≤ n ∧ n ≤ 32) | _ => true)
  | .perstN ctl => decide (ctl < 2)
  | .pcieLinkUp ctl => decide (ctl < 2)
  | .pcieLinkDown ctl => decide (ctl < 2)
  | .checkpoint c => decide (c < Config.clusters)
  | .coldStart strap => decide (strap < 4)
  | .warmStart _ => true
  | .powerFailReset rail _ => decide (rail < 8)
  | .hbmTrainingDone _ => true
  | .imageReadDone _ _ => true
  | .imageSlotFailure _ _ _ => true
  | .threadRestart a _ => agent a
  | .clusterReset a _ => agent a
  | .deviceSoftReset a => agent a
  | .standbyEntry a => agent a
  | .cautionEntry rail _ => decide (rail < 8)
  | .thermalSensorRead raw => decide (raw.length = 40)
  | .napEntry c => decide (c < Config.clusters)
  | .napExit c => decide (c < Config.clusters)
  | .dozeEntry core => decide (core < 384)
  | .dozeExit core => decide (core < 384)
  | .clkTodstep a _ => agent a
  | .timerExpiry i => decide (i < 128)
  | .sbxRngRead a => agent a
  | .freeze a => agent a
  | .rearm a => agent a
  | .trainExport a _ => agent a
  | .trainImport a _ => agent a
  | .exportImportDone _ _ => true
  | .replayEnter a _ => agent a
  | .replayLoad a => agent a
  | .replayGo a => agent a
  | .replayRecord _ => true
  | .replayDump a => agent a
  | .replayExit a => agent a
  | .ptpFrameReceived p _ => decide (p < 8)
  | .ptpRxEnable p a _ => agent a && decide (p < 8)
  | .ptpRxHeadWrite p a _ => agent a && decide (p < 8)
  | .ptpTx p a _ => agent a && decide (p < 8)
  | .sidebandRead o => decide (o < 65536)
  | .ethLinkUp p => decide (p < 8)
  | .ethLinkDown p _ => decide (p < 8)
  | .extest _ => true
  | .epochBoundary => true
  | .signPeriodMark => true
  | .chainSignature => true
  | .rngHealthFail => true
  | .powerDown => true
  | .powerFailRestart => true
  | .clockFaultReset => true
  | .pllRelock => true
  | .clusterRelease => true
  | .wake => true
  | .cautionExit => true
  | .vcoreSetpointReported => true
  | .thermtrip => true
  | .ppsInEdge => true
  | .ppsOutEdge => true
  | .trigInEdge => true
  | .freezeInstant => true
  | .sidebandStatus => true

end Sys2Proof
end

