-- ==== Sys2Proof/Safety.lean ====
section
/-! DEFINITION. The terms that statements use: when a thread's instruction can issue, the states that commands leave, what an agent reads, and
the invariants that every command keeps. -/
namespace Sys2Proof.Machine

open Sys2Proof

/-- Thread `g` of the device. -/
def State.thread (s : State) (g : Nat) : Thread := s.dev.thread g

/-- The next instruction of thread `g` can issue (R124, R125, R152): the thread exists and is no thread of a detached cluster, its core
runs, it is not FREE or locked up, no mode change falls due, no interrupt is eligible, and no POST awaits a result for a register in
`regs` or, where `fl`, for FL. -/
def State.ready (s : State) (g : Nat) (regs : List GReg) (fl : Bool) : Bool :=
  decide (g < Config.threads) && !s.dev.replaying (clusterOf g) && s.dev.issuable g regs fl

/-- The state with another device: the commands that wait are the same. -/
def State.withDev (s : State) (d : Dev) : State := { s with dev := d }

/-- The state with thread `g` as `t`, and nothing else changed. -/
def State.withThread (s : State) (g : Nat) (t : Thread) : State := s.withDev (s.dev.setThread g t)

/-- The state after an instruction of thread `g` that completed with the sequential successor `n` bytes on (R146, R152), and
whose effect is that the thread has become `t` and the device `d`. -/
def State.completed (s : State) (g : Nat) (d : Dev) (t : Thread) (n : Nat) : State :=
  s.withDev (d.setThread g (t.retire (t.pc + word n)))

/-- The state after a 32-bit instruction of thread `g` that changed nothing but its thread, which has become `t` (R146, R152). -/
def State.retired (s : State) (g : Nat) (t : Thread) : State := s.completed g s.dev t 4

/-- A thread with N, Z, C and V written from unpoisoned sources (R171, R225): DI and DZ are kept. -/
def Thread.withNzcv (t : Thread) (n z c v : Bool) : Thread := { t with fl := ⟨packFlags t.fl.val ⟨n, z, c, v⟩, false⟩ }

/-- A thread with a general register written, with no mark. -/
def Thread.put (t : Thread) (r : GReg) (v : Word) : Thread := t.setGreg r ⟨v, false⟩

/-- The value of a general register. -/
def Thread.gval (t : Thread) (r : GReg) : Word := (t.greg r).val
/-- Whether no register of a list carries a poison mark. -/
def Thread.clear (t : Thread) (rs : List GReg) : Bool := rs.all (fun r => !(t.greg r).poison)

/-- What the command `i` leaves where it completes. -/
def Leaves (i : Instr) (s t : State) : Prop := exec i s = .next t

/-- The command `i` completes in a state of which `P` holds. -/
def Completes (i : Instr) (s : State) (P : State → Prop) : Prop := ∃ t, exec i s = .next t ∧ P t

/-- A byte of memory with its poison mark, as every agent reads it. -/
def State.byte (s : State) (a : Nat) : PByte := s.dev.readByte a

/-- The store-buffer entries of a store of at most 64 bytes at `a` (R315, R324): one for each 64-byte line that it touches. -/
def Thread.entriesOf (t : Thread) (a : Nat) (bs : List PByte) : List StoreEntry :=
  if a % 64 + bs.length ≤ 64 then [⟨a, bs, t.world, false, false⟩]
  else [⟨a, bs.take (64 - a % 64), t.world, false, false⟩, ⟨a + (64 - a % 64), bs.drop (64 - a % 64), t.world, false, false⟩]

/-- A thread with a store behind the earlier ones of its buffer. -/
def Thread.buffered (t : Thread) (a : Nat) (bs : List PByte) : Thread := { t with sb := t.sb ++ t.entriesOf a bs }

/-- Whether the store buffer has a place for each entry of a store of `n` bytes at `a` (R315). -/
def Thread.room (t : Thread) (a n : Nat) : Bool := decide (t.sbUsed + (if a % 64 + n ≤ 64 then 1 else 2) ≤ 8)

/-- No store of the thread that waits overlaps `n` bytes at `a`. -/
def Thread.noStoreIn (t : Thread) (a n : Nat) : Bool := t.sb.all (fun e => !e.overlaps a n)

/-- The check of R309 passes for an access by thread `g`. -/
def State.mayAccess (s : State) (g : Nat) (acc : Acc) (a n : Nat) : Prop :=
  s.dev.checkAccess ⟨clusterOf g, (s.thread g).world, (s.thread g).sup, (s.thread g).key⟩ acc a n = none

/-- An operand of an access: its address, its length, and whether it is written. -/
structure Operand where
  addr : Nat
  len : Nat
  dirty : Bool
  deriving DecidableEq, Repr

/-- The operand lies, in part or whole, in the frame whose key byte is at `b`. -/
def State.touches (s : State) (p : Operand) (b : Nat) : Bool :=
  (List.range p.len).any (fun i => decide (s.dev.keyAddr (p.addr + i) = some b))

/-- The bytes and poison marks of memory are as they were, but that the key bytes of the frames of the operands `l` have USED, and DIRTY
where one is written (R312). -/
def KeysOnly (s u : State) (l : List Operand) : Prop :=
  u.dev.mem.marks = s.dev.mem.marks ∧ ∀ b, u.dev.byteAt b = s.dev.byteAt b |||
    (if l.any (fun p => p.dirty && s.touches p b) then 3#8 else if l.any (fun p => s.touches p b) then 2#8 else 0#8)

/-- What a thread's instruction leaves: the thread as `t`, every other thread as it was, and memory as it was but for the marks of the
frames that hold its operands. -/
def State.leftAs (s : State) (g : Nat) (t : Thread) (l : List Operand) (u : State) : Prop :=
  u.thread g = t ∧ KeysOnly s u l ∧ ∀ h, h ≠ g → u.thread h = s.thread h

/-- Thread `w` is thread `t` with the general registers of `ws` written, the first entry for a register counting, and nothing else changed; X0 is
not written (R129). -/
def Thread.writes (t : Thread) (ws : List (GReg × Reg)) (w : Thread) : Prop :=
  { w with regs := t.regs } = t ∧ ∀ p, w.physGet p =
    match ws.find? (fun (x : GReg × Reg) => decide (x.1 ≠ 0 ∧ t.phys x.1 = p)) with | some x => x.2 | none => t.physGet p

/-- No byte of an operand lies in the key store window. -/
def offKeys (a n : Nat) : Prop := a + n ≤ Config.keyBase ∨ Config.keyBase + 0x700000 ≤ a

/-- R158, R159: `bs` is a valid packed decimal field, of value `v`. -/
def IsPacked (bs : List Byte) (v : Int) : Prop :=
  let n := 2 * bs.length - 1
  let mag : Int := (((List.range n).foldl (fun x i => 10 * x + nibble bs i) 0 : Nat) : Int)
  bs ≠ [] ∧ (∀ i, i < n → nibble bs i ≤ 9) ∧ 10 ≤ nibble bs n
    ∧ v = if nibble bs n = 0xB ∨ nibble bs n = 0xD then -mag else mag

/-- R161, R162: `bs` is a valid zoned field under sign convention `m`, of value `v`. -/
def IsZoned (m : Nat) (bs : List Byte) (v : Int) : Prop :=
  ∃ ds : List Nat, (∀ x ∈ ds, x ≤ 9) ∧
    let e : List Byte := ds.map (fun x => BitVec.ofNat 8 (0x30 + x))
    let mag : Int := ((ds.foldl (fun x i => 10 * x + i) 0 : Nat) : Int)
    (m = 0 ∧ bs = e ∧ v = mag) ∨ (m = 1 ∧ bs = e ++ [0x2B#8] ∧ v = mag) ∨ (m = 1 ∧ bs = e ++ [0x2D#8] ∧ v = -mag)
      ∨ (m = 2 ∧ bs = 0x2B#8 :: e ∧ v = mag) ∨ (m = 2 ∧ bs = 0x2D#8 :: e ∧ v = -mag)

/-- R169, R177: what a decimal result `r` leaves in `n` digits: whole where it fits, with V 0; under masked overflow its low digits,
with V 1. -/
def DecimalFits (t : Thread) (r : Int) (n : Nat) (v : Int) (ov : Bool) : Prop :=
  (r.natAbs < 10 ^ n ∧ v = r ∧ ov = false) ∨ (10 ^ n ≤ r.natAbs ∧ t.dom = true ∧ v = r.tmod (10 ^ n) ∧ ov = true)

/-- The maps of a memory are in canonical form: keys strictly rising, and no entry that holds what an unlisted key reads as. -/
def Mem.wf (m : Mem) : Bool :=
  SMap.wf byteDefault m.bytes && SMap.wf markDefault m.marks && SMap.wf (fun _ => ([] : List Nat)) m.hbmUpset
    && SMap.wf (fun _ => ([] : List Nat)) m.sramUpset

/-- The memories of a state are in canonical form: the device's, and that of a replay's detached cluster. -/
def State.memoryWf (s : State) : Bool := s.dev.mem.wf && s.dev.trg.replay.mem.wf

/-- Every command that waits names only units the device has. -/
def State.queueWf (s : State) : Bool := s.pending.all Instr.wellFormed

/-- Agent `a` may write block slot `n` of control space now (R433, R434). -/
def State.mayWriteSlot (s : State) (a : Agent) (n : Nat) : Bool := agentExists a && s.dev.reaches a && s.dev.mayWrite a n

/-- What an accepted frame leaves of its link where nothing waits to be sent (R370): FSEQ and ACKSEQ have advanced. -/
def Dev.linked (d : Dev) (east : Bool) (f : LFrame) : Dev :=
  d.setPort east (Port.acked { d.port east with expect := ((d.port east).expect + 1) % 2 ^ 32, first := true } f.ackseq)

/-- A frame of type `typ` is accepted on a port (R370, R371, R395), it carries no NAK, and nothing waits to be sent on either
port, nor has a seed begun. -/
def State.accepts (s : State) (east : Bool) (typ : Nat) (f : LFrame) : Prop :=
  s.dev.frameOk east f = true ∧ f.typ = typ ∧ s.dev.tooFar east f = false ∧ f.nak = false
    ∧ s.dev.ring.east.txq = [] ∧ s.dev.ring.west.txq = [] ∧ s.dev.ring.stream = [] ∧ s.dev.ring.seeding = []

/-- A frame can leave a port now. -/
def State.canSend (s : State) (east : Bool) : Prop := (s.dev.port east).carries = true ∧ (s.dev.port east).store.length < 512

/-- R436, R441: what a write of `new` leaves of a bit of a class that holds `old`; `locked` is the lock of the bit's slot. Fields that the device
writes, and those that take effect later, keep it. -/
def Cls.after (c : Cls) (old new locked : Bool) : Bool :=
  match c with
  | .rw | .ctr | .rwt => new
  | .rwl => if locked then old else new
  | .w1c => old && !new
  | .w1s => old || new
  | _ => old

/-- The registers whose write does more than change the fields written, and the two whose values are clamped as they are written. -/
def actingRegs : List Nat :=
  [rCfgSwi, rYrdPincmd, rQmKdb, rQmKqsel, rLlLupd, rMicHeal, rClkTodstep, rTrgCtl, rTrgExpCtl, rTrgRplCtl, rPciMbxCmd 0, rPciMbxCmd 1,
    rCfgIrtData, rJnlQdata, rClkTmrdl, rClkTmrctl, rClkTodadj, rTrgWin]
  ++ (List.range 8).flatMap (fun p => [rEthPtpctl p, rEthPtprxidx p, rEthPtptxcmd p])

/-- `o` is the live offset of a register that a write only gives its new value. -/
def plainReg (o : Nat) : Bool :=
  decide (o < 2 ^ 18 ∧ o % 8 = 0 ∧ (placeOf o).reg = o) && !(placeOf o).window && !isRwi o && (complementOf o).isNone && !actingRegs.contains o

/-- Register `o` after a write: each bit `k` that `covered` names, and that no field in progress freezes, follows its field's class; every other bit
is as it was. -/
def State.wrote (s : State) (o : Nat) (covered new : Nat → Bool) (t : State) : Prop :=
  let old := s.dev.reg o
  let live := fun (k : Nat) => covered k && !bit (s.dev.frozenBits o) k
  (∀ f ∈ regFields o, ∀ k, f.lo ≤ k → k ≤ f.hi → bit (t.dev.reg o) k =
      if live k then f.cls.after (bit old k) (new k) (s.dev.rb rCfgLock (o / 4096)) else bit old k)
  ∧ (∀ k, (∀ f ∈ regFields o, k < f.lo ∨ f.hi < k) → bit (t.dev.reg o) k = bit old k)
  ∧ (o ≠ rYrdForbid → ∀ f ∈ regFields o, f.cls = .rwe → ∀ k, f.lo ≤ k → k ≤ f.hi → live k = true → bit ((t.dev.rweOf o).getD 0) k = new k)
  ∧ (∀ r, r ≠ o → r ≠ rCfgLockviol → r ≠ rYrdErr → t.dev.reg r = s.dev.reg r) ∧ t.dev.mem = s.dev.mem

/-- What every reset of the device leaves (R530, R537): no thread holds work or state, no cluster is released, and the hub, the Yard, the journal and
the ring are as before the first start, the switches of the Through Line apart. -/
def State.bare (s t : State) : Prop :=
  (∀ g, t.thread g = Thread.reset) ∧ (∀ c, t.dev.cluster c = Cluster.reset) ∧ t.dev.hub = Hub.reset ∧ t.dev.yard = Yard.reset ∧ t.dev.jnl = Jnl.reset
    ∧ t.dev.ring = { Ring.reset with inserted := s.dev.ring.inserted }

/-- A start of a kind has begun (R481, R530). -/
def State.begun (s : State) (kind : Nat) (t : State) : Prop := s.bare t ∧ t.dev.box.power = .on ∧ t.dev.box.kind = kind ∧ t.dev.phase = 1

/-- Where no cluster store holds a line with bytes that HBM does not hold, every byte of HBM is as it was (R530). -/
def State.hbmKept (s t : State) : Prop :=
  (∀ p ∈ s.dev.clu, ∀ x ∈ p.2.lines, x.old = none) → ∀ b, b < Config.hbmEnd → t.dev.byteAt b = s.dev.byteAt b

/-- A command left every thread, every byte and poison mark of memory, and every stored codeword as they were. -/
def State.keeps (s t : State) : Prop := (∀ g, t.thread g = s.thread g) ∧ t.dev.mem = s.dev.mem

end Sys2Proof.Machine
end

