-- ==== Sys2Proof/Certificates/Slice0/Obligations.lean ====
section
/-! DEFINITION. The statements about the model, for the provers. -/

open Sys2Proof Sys2Proof.Machine

/-- STEP. The command at the front of the queue is run on the state with the queue's rest. -/
def Obligations.StepRunsFrontCommand : Prop :=
  ∀ (s : State) (c : Instr), step { s with pending := c :: s.pending } = exec c s

/-- On an empty queue one fabric cycle passes (assumption 2: the model's choice): only CLK_TOD and the clusters' cycle counts move, each
forwards, and nothing moves while the device does not run. -/
def Obligations.EmptyQueueMovesOnlyClocks : Prop :=
  ∀ s : State, s.pending = [] → ∃ d : Dev,
    step s = .next (s.withDev d) ∧ { d with tod := s.dev.tod, clu := s.dev.clu } = s.dev ∧ s.dev.tod ≤ d.tod
      ∧ (∀ c, { d.cluster c with ccc := (s.dev.cluster c).ccc } = s.dev.cluster c ∧ (s.dev.cluster c).ccc ≤ (d.cluster c).ccc)
      ∧ (s.dev.box.power ≠ .on → d = s.dev)

/-- Every command that names only units the device has completes, whatever the state, and leaves the queue as it was; any other stops
with the fault `noSuchUnit`, and no command is refused. -/
def Obligations.WellFormedCommandsComplete : Prop :=
  ∀ (i : Instr) (s : State),
    (i.wellFormed = true → ∃ d, exec i s = .next (s.withDev d)) ∧ (i.wellFormed = false → exec i s = .fault .noSuchUnit)

/-- A queue of commands that name only units the device has runs to its end: as many steps as commands wait, and none stops. The queue stays
such a queue after every step. -/
def Obligations.QueueRunsToItsEnd : Prop :=
  ∀ s : State, s.queueWf = true →
    (∃ t, step s = .next t ∧ t.queueWf = true ∧ t.pending = s.pending.tail)
    ∧ ∃ t : State, Host.Core.run Sys2Proof.core s.pending.length s = Host.Outcome.next t ∧ t.pending = []

/-- The memories keep their canonical form in every step. -/
def Obligations.MemoryStaysCanonical : Prop :=
  ∀ s t : State, s.memoryWf = true → step s = .next t → t.memoryWf = true

/-- Reset: the device is off (R493, R530), no thread holds work, the Loop Line is at bypass (R394), the memories list nothing and are in canonical form, every
general register of every thread reads zero (a value the model names: assumption 4), and no command waits. -/
def Obligations.ResetLeavesDeviceOff : Prop :=
  State.reset.dev.box.power = .off ∧ State.reset.pending = [] ∧ State.reset.memoryWf = true ∧ State.reset.queueWf = true
    ∧ State.reset.dev.ring.state = .out ∧ State.reset.dev.ring.inserted = false
    ∧ (∀ g, (State.reset.thread g).run = .free ∧ ∀ r, (State.reset.thread g).greg r = ⟨0, false⟩)
    ∧ (∀ a, State.reset.byte a = ⟨0, false⟩)

/-- R129, R130, R134: X0 reads as zero and ignores writes; X1-X7 are one set in every mode; at user level P, L and Q are those of window WSEL, and
at supervisor level numbers 8-23 are the bank of TS.WORLD; Q0-Q7 of a window are P0-P7 of the next, and L0-L7 no other window's; a written register other than X0
reads as written and no other physical register changes. -/
def Obligations.GeneralRegistersResolve : Prop :=
  ∀ (t u : Thread) (r q : GReg) (v : Reg),
    (t.greg 0 = ⟨0, false⟩ ∧ t.setGreg 0 v = t)
    ∧ (r.toNat < 8 → t.phys r = u.phys r)
    ∧ (t.sup = false → u.sup = true → t.wsel < 12 → 8 ≤ r.toNat → r.toNat < 24 → t.phys r ≠ u.phys q ∨ q.toNat < 8 ∨ 24 ≤ q.toNat)
    ∧ (t.sup = true → u.sup = true → t.world ≠ u.world → 8 ≤ r.toNat → r.toNat < 24 → t.phys r ≠ u.phys q)
    ∧ (t.sup = false → u.sup = false → t.wsel < 12 → u.wsel = (t.wsel + 1) % 12 → r.toNat < 8 → t.phys (r + 24) = u.phys (r + 8))
    ∧ (t.sup = false → t.wsel < 12 → r.toNat < 8 → t.phys (r + 8) = 8 + 8 * (2 * t.wsel % 24) + r.toNat
      ∧ t.phys (r + 16) = 8 + 8 * ((2 * t.wsel + 1) % 24) + r.toNat ∧ t.phys (r + 24) = 8 + 8 * ((2 * t.wsel + 2) % 24) + r.toNat)
    ∧ (t.sup = false → u.sup = false → t.wsel < 12 → u.wsel < 12 → t.wsel ≠ u.wsel → r.toNat < 8 → t.phys (r + 16) ≠ u.phys q)
    ∧ (t.phys r ≠ 0 → (t.setGreg r v).greg r = v)
    ∧ (t.phys q ≠ t.phys r → (t.setGreg r v).greg q = t.greg q)
    ∧ (t.phys r = 0 ↔ r = 0)

/-- ADD, ADC, SUB, SBC, ADDI and SUBI (R223-R225) on sources with no mark: the result, and N, Z, C and V. Nothing else of the device
changes but what completing an instruction changes. -/
def Obligations.AddAndSubtractSetResultAndFlags : Prop :=
  ∀ (s : State) (g : Nat) (rd ra rb : GReg) (a b : Word) (imm : BitVec 16),
    let t := s.thread g
    let c := bit t.fl.val 1
    let i := imm.signExtend 64
    t.greg ra = ⟨a, false⟩ →
    (s.ready g [rd, ra, rb] true = true → t.greg rb = ⟨b, false⟩ →
      exec (.add g rd ra rb) s = .next (s.retired g ((t.put rd (a + b)).withNzcv (a + b).msb (decide (a + b = 0))
        (decide (2 ^ 64 ≤ a.toNat + b.toNat)) (a.msb == b.msb && (a + b).msb != a.msb)))
      ∧ exec (.sub g rd ra rb) s = .next (s.retired g ((t.put rd (a - b)).withNzcv (a - b).msb (decide (a - b = 0))
        (decide (b.toNat ≤ a.toNat)) (a.msb != b.msb && (a - b).msb != a.msb)))
      ∧ (t.fl.poison = false →
        exec (.adc g rd ra rb) s = .next (s.retired g ((t.put rd (a + b + word c.toNat)).withNzcv (a + b + word c.toNat).msb
          (decide (a + b + word c.toNat = 0)) (decide (2 ^ 64 ≤ a.toNat + b.toNat + c.toNat))
          (decide (a.toInt + b.toInt + c.toNat ≠ (a + b + word c.toNat).toInt))))
        ∧ exec (.sbc g rd ra rb) s = .next (s.retired g ((t.put rd (a - b - word (!c).toNat)).withNzcv (a - b - word (!c).toNat).msb
          (decide (a - b - word (!c).toNat = 0)) (decide (b.toNat + (!c).toNat ≤ a.toNat))
          (decide (a.toInt - b.toInt - (!c).toNat ≠ (a - b - word (!c).toNat).toInt))))))
    ∧ (s.ready g [rd, ra] true = true →
      exec (.addi g rd ra imm) s = .next (s.retired g ((t.put rd (a + i)).withNzcv (a + i).msb (decide (a + i = 0))
        (decide (2 ^ 64 ≤ a.toNat + i.toNat)) (a.msb == i.msb && (a + i).msb != a.msb)))
      ∧ exec (.subi g rd ra imm) s = .next (s.retired g ((t.put rd (a - i)).withNzcv (a - i).msb (decide (a - i = 0))
        (decide (i.toNat ≤ a.toNat)) (a.msb != i.msb && (a - i).msb != a.msb))))

/-- AND, OR, XOR, ANDN, ANDI, ORI, XORI and MOVK (R223-R225) on sources with no mark: bit by bit; C and V are 0; MOVK replaces one
halfword and no flag. -/
def Obligations.LogicAndMoveSetResult : Prop :=
  ∀ (s : State) (g : Nat) (rd ra rb : GReg) (a b : Word) (imm : BitVec 16) (hw : BitVec 2),
    let t := s.thread g
    let done := fun (v : Word) => Host.Outcome.next (s.retired g ((t.put rd v).withNzcv v.msb (decide (v = 0)) false false))
    t.greg ra = ⟨a, false⟩ →
    (s.ready g [rd, ra, rb] true = true → t.greg rb = ⟨b, false⟩ →
      exec (.and g rd ra rb) s = done (a &&& b) ∧ exec (.or g rd ra rb) s = done (a ||| b)
      ∧ exec (.xor g rd ra rb) s = done (a ^^^ b) ∧ exec (.andn g rd ra rb) s = done (a &&& ~~~b))
    ∧ (s.ready g [rd, ra] true = true →
      exec (.andi g rd ra imm) s = done (a &&& imm.setWidth 64) ∧ exec (.ori g rd ra imm) s = done (a ||| imm.setWidth 64)
      ∧ exec (.xori g rd ra imm) s = done (a ^^^ imm.setWidth 64))
    ∧ (s.ready g [ra] false = true → ∃ v : Word, exec (.movk g ra hw imm) s = .next (s.retired g (t.put ra v))
      ∧ ∀ k, k < 64 → v.getLsbD k = if k / 16 = hw.toNat then imm.getLsbD (k % 16) else a.getLsbD k)

/-- SHL, SHR, SAR, SHI, MUL, MULH and MULHU (R223-R226, R228) on sources with no mark: a shift takes rb[5:0], C is the last bit shifted out and 0
for an amount of 0; the product is exact before its half is taken, and V of MUL says that the signed product does not fit. -/
def Obligations.ShiftAndMultiplySetResultAndFlags : Prop :=
  ∀ (s : State) (g : Nat) (rd ra rb : GReg) (a b : Word) (kind : BitVec 2) (amt : BitVec 6),
    let t := s.thread g
    let done := fun (v : Word) (c o : Bool) => Host.Outcome.next (s.retired g ((t.put rd v).withNzcv v.msb (decide (v = 0)) c o))
    let left := fun (n : Nat) => done (a <<< n) (if n = 0 then false else a.getLsbD (64 - n)) false
    let right := fun (n : Nat) => done (a >>> n) (if n = 0 then false else a.getLsbD (n - 1)) false
    let arith := fun (n : Nat) => done (a.sshiftRight n) (if n = 0 then false else a.getLsbD (n - 1)) false
    t.greg ra = ⟨a, false⟩ →
    (s.ready g [rd, ra, rb] true = true → t.greg rb = ⟨b, false⟩ →
      exec (.shl g rd ra rb) s = left (fld b 0 6) ∧ exec (.shr g rd ra rb) s = right (fld b 0 6)
      ∧ exec (.sar g rd ra rb) s = arith (fld b 0 6)
      ∧ exec (.mul g rd ra rb) s = done (BitVec.ofInt 64 (a.toInt * b.toInt)) false
        (decide (a.toInt * b.toInt ≠ (BitVec.ofInt 64 (a.toInt * b.toInt)).toInt))
      ∧ exec (.mulh g rd ra rb) s = done (((a.signExtend 128 * b.signExtend 128) >>> 64).setWidth 64) false false
      ∧ exec (.mulhu g rd ra rb) s = done (((a.setWidth 128 * b.setWidth 128) >>> 64).setWidth 64) false false)
    ∧ (s.ready g [rd, ra] true = true →
      (kind = 0 → exec (.shi g rd ra kind amt) s = left amt.toNat) ∧ (kind = 1 → exec (.shi g rd ra kind amt) s = right amt.toNat)
      ∧ (kind = 2 → exec (.shi g rd ra kind amt) s = arith amt.toNat))

/-- DIV and DIVU (R227, R228) on sources with no mark, for rd and rr that differ or are both X0: the quotient truncated towards zero, the remainder with the
sign of the dividend, the two edge cases, and Z, N, C and V. -/
def Obligations.DivideGivesQuotientAndRemainder : Prop :=
  ∀ (s : State) (g : Nat) (rd ra rb rr : GReg) (a b : Word),
    let t := s.thread g
    let done := fun (q r : Word) (o : Bool) => Host.Outcome.next (s.retired g (((t.put rd q).put rr r).withNzcv q.msb (decide (q = 0)) false o))
    s.ready g [rd, ra, rb, rr] true = true → t.greg ra = ⟨a, false⟩ → t.greg rb = ⟨b, false⟩ → (rd ≠ rr ∨ rd = 0) →
      (b = 0 → exec (.div g rd ra rb rr) s = done (~~~0#64) a true ∧ exec (.divu g rd ra rb rr) s = done (~~~0#64) a true)
      ∧ (a = 0x8000000000000000#64 → b = ~~~0#64 → exec (.div g rd ra rb rr) s = done a 0 true)
      ∧ (b ≠ 0 → (a ≠ 0x8000000000000000#64 ∨ b ≠ ~~~0#64) → ∃ q r : Word, exec (.div g rd ra rb rr) s = done q r false
        ∧ a.toInt = q.toInt * b.toInt + r.toInt ∧ r.toInt.natAbs < b.toInt.natAbs
        ∧ (r.toInt = 0 ∨ (r.toInt < 0 ↔ a.toInt < 0)))
      ∧ (b ≠ 0 → ∃ q r : Word, exec (.divu g rd ra rb rr) s = done q r false
        ∧ a.toNat = q.toNat * b.toNat + r.toNat ∧ r.toNat < b.toNat)

/-- A poisoned source of an integer form (R251, R171): the destination takes the mark, FL is poisoned, DI and DZ are kept, the thread goes on, and no
other thread, register or byte of memory changes. The values are free values. -/
def Obligations.PoisonedIntegerSourceMarksDestination : Prop :=
  ∀ (s : State) (g : Nat) (rd ra rb rr : GReg) (i : Instr),
    let t := s.thread g
    s.ready g [rd, ra, rb, rr] true = true → ((t.greg ra).poison = true ∨ (t.greg rb).poison = true) → (rd ≠ rr ∨ rd = 0) →
    i ∈ [.add g rd ra rb, .sub g rd ra rb, .adc g rd ra rb, .sbc g rd ra rb, .and g rd ra rb, .or g rd ra rb, .xor g rd ra rb,
      .andn g rd ra rb, .shl g rd ra rb, .shr g rd ra rb, .sar g rd ra rb, .mul g rd ra rb, .mulh g rd ra rb, .mulhu g rd ra rb,
      .div g rd ra rb rr, .divu g rd ra rb rr] →
    Completes i s (fun u =>
      let v := u.thread g
      (rd ≠ 0 → (v.greg rd).poison = true) ∧ v.fl.poison = true ∧ fld v.fl.val 4 2 = fld t.fl.val 4 2
      ∧ (∀ q, q ≠ rd → q ≠ rr → v.greg q = t.greg q) ∧ (∀ h, h ≠ g → u.thread h = s.thread h)
      ∧ u.dev.mem = s.dev.mem ∧ u.dev.ctl = s.dev.ctl ∧ (t.le = false → v.pc = t.pc + 4))

/-- BC, BR and JMPR (R259, R260): each condition by its flags; a condition that does not hold goes on at PC + 4; BR and JMPR read no flag, and none of
the three changes FL or a register. -/
def Obligations.BranchesFollowConditions : Prop :=
  ∀ (s : State) (g : Nat) (cond : BitVec 4) (disp : BitVec 22) (far : BitVec 26) (ra : GReg) (a : Word),
    let t := s.thread g
    let n := bit t.fl.val 3
    let z := bit t.fl.val 2
    let c := bit t.fl.val 1
    let v := bit t.fl.val 0
    let holds := [false, z, !z, !c, c, c && !z, !c || z, n != v, n == v, !z && (n == v), z || (n != v), n, !n, v, !v, true].getD cond.toNat false
    let jump := fun (target : Word) =>
      Host.Outcome.next (s.withDev ((s.dev.btbNote (coreOf g) t.pc.toNat target.toNat).setThread g (t.retireTo target)))
    (s.ready g [] true = true → cond ≠ 0 → t.fl.poison = false →
      exec (.bc g cond disp) s = if holds then jump (t.pc + 4#64 * disp.signExtend 64) else .next (s.retired g t))
    ∧ (s.ready g [] false = true → exec (.bc g 15 disp) s = jump (t.pc + 4#64 * disp.signExtend 64)
      ∧ exec (.br g far) s = jump (t.pc + 4#64 * far.signExtend 64))
    ∧ (s.ready g [ra] false = true → t.greg ra = ⟨a, false⟩ → exec (.jmpr g ra) s = jump (a - (a &&& 3#64)))

/-- CALLW, CALLWR and RETW (R134-R136) within the window ring: the return address goes to Q7 of the caller, which is P7 of the callee; WSEL and
WD move by one; RETW goes back through P7 of the current window. -/
def Obligations.WindowCallsMoveTheWindow : Prop :=
  ∀ (s : State) (g : Nat) (ra : GReg) (disp : BitVec 26) (a : Word),
    let t := s.thread g
    let q7 := 8 + 8 * ((2 * t.wsel + 2) % 24) + 7
    let p7 := 8 + 8 * (2 * t.wsel % 24) + 7
    let jump := fun (u : Thread) (target : Word) =>
      Host.Outcome.next (s.withDev ((s.dev.btbNote (coreOf g) t.pc.toNat target.toNat).setThread g (u.retireTo target)))
    let called := { t.physSet q7 ⟨t.pc + 4, false⟩ with wsel := (t.wsel + 1) % 12, wd := t.wd + 1 }
    (t.wd ≠ 11 → s.ready g [31] false = true → exec (.callw g disp) s = jump called (t.pc + 4#64 * disp.signExtend 64))
    ∧ (t.wd ≠ 11 → s.ready g [ra, 31] false = true → t.greg ra = ⟨a, false⟩ → exec (.callwr g ra) s = jump called (a - (a &&& 3#64)))
    ∧ (t.wd ≠ 0 → s.ready g [] false = true → (∀ p ∈ t.posts, p.dest ≠ p7) → t.physGet p7 = ⟨a, false⟩ →
      exec (.retw g) s = jump { t with wsel := (t.wsel + 11) % 12, wd := t.wd - 1 } (a - (a &&& 3#64)))

/-- MFS (R131, R133, R152): the value of every special register that the mode may read. -/
def Obligations.SpecialRegistersRead : Prop :=
  ∀ (s : State) (g : Nat) (ra : GReg),
    let t := s.thread g
    let w := if t.world then t.down else t.up
    let gives := fun (n : Nat) (v : Word) => exec (.mfs g ra (BitVec.ofNat 6 n)) s = .next (s.retired g (t.put ra v))
    (s.ready g [ra] true = true → t.fl.poison = false → gives 0x01 t.fl.val)
    ∧ (s.ready g [ra] false = true →
      gives 0x00 t.pc ∧ gives 0x04 t.cnt ∧ (t.es.poison = false → gives 0x05 t.es.val) ∧ gives 0x06 (word t.wsel) ∧ gives 0x07 (word t.wd)
      ∧ gives 0x08 t.lp0.la ∧ gives 0x09 t.lp1.la ∧ gives 0x0A t.lp2.la ∧ gives 0x0B t.lp0.lb ∧ gives 0x0C t.lp1.lb ∧ gives 0x0D t.lp2.lb
      ∧ gives 0x0E t.lp0.ln ∧ gives 0x0F t.lp1.ln ∧ gives 0x10 t.lp2.ln ∧ gives 0x12 t.fpepc ∧ gives 0x19 (word g)
      ∧ (t.fpOut = [] → bit t.fps 19 = false → gives 0x11 t.fps)
      ∧ (t.shadow = none → gives 0x02 t.ts)
      ∧ (∀ x, t.shadow = some x → gives 0x02 ((t.ts &&& ~~~0x7F#64) ||| (x.bits &&& 0x7F#64)))
      ∧ (t.sup = true → gives 0x03 w.tsbr ∧ gives 0x13 t.sepc ∧ gives 0x15 t.sets ∧ gives 0x16 w.sentry ∧ gives 0x17 w.edtb ∧ gives 0x18 t.xceil
        ∧ (t.sefl.poison = false → gives 0x14 t.sefl.val)))

/-- MTS (R131-R133, R231, R278) at supervisor level of a value with no mark: what each special register takes, and that nothing else of the thread
changes. At user level the registers that the table marks RW there take the same. -/
def Obligations.SpecialRegistersTakeWrites : Prop :=
  ∀ (s : State) (g : Nat) (ra : GReg) (v : Word),
    let t := s.thread g
    let takes := fun (n : Nat) (u : Thread) => exec (.mts g ra (BitVec.ofNat 6 n)) s = .next (s.retired g u)
    t.greg ra = ⟨v, false⟩ →
    (s.ready g [ra] true = true → takes 0x01 { t with fl := ⟨v &&& 0x3F#64, false⟩ })
    ∧ (s.ready g [ra] false = true →
      takes 0x04 { t with cnt := v } ∧ takes 0x05 { t with es := ⟨v &&& 0xFFFF#64, false⟩ }
      ∧ takes 0x08 { t with lp0 := { t.lp0 with la := v } } ∧ takes 0x09 { t with lp1 := { t.lp1 with la := v } }
      ∧ takes 0x0A { t with lp2 := { t.lp2 with la := v } } ∧ takes 0x0B { t with lp0 := { t.lp0 with lb := v } }
      ∧ takes 0x0C { t with lp1 := { t.lp1 with lb := v } } ∧ takes 0x0D { t with lp2 := { t.lp2 with lb := v } }
      ∧ takes 0x0E { t with lp0 := { t.lp0 with ln := v } } ∧ takes 0x0F { t with lp1 := { t.lp1 with ln := v } }
      ∧ takes 0x10 { t with lp2 := { t.lp2 with ln := v } }
      ∧ (∃ f : Word, takes 0x11 { t with fps := f } ∧ fld f 0 5 = fld v 0 5 ∧ fld f 8 5 = fld v 8 5 ∧ fld f 20 5 = fld v 20 5
        ∧ fld f 16 3 = (if fld v 16 3 ≤ 4 then fld v 16 3 else fld t.fps 16 3) ∧ bit f 19 = (bit t.fps 19 && bit v 19)
        ∧ fld f 5 3 = 0 ∧ fld f 13 3 = 0 ∧ fld f 25 39 = 0)
      ∧ (t.sup = true →
        takes 0x06 { t with wsel := if fld v 0 4 < 12 then fld v 0 4 else t.wsel }
        ∧ takes 0x07 { t with wd := if fld v 0 4 < 12 then fld v 0 4 else t.wd }
        ∧ takes 0x12 { t with fpepc := word (fld v 0 48) }
        ∧ takes 0x15 { t with sets := setBit (v &&& 0x1FF7F#64) 1 t.world }
        ∧ takes 0x13 { t with sepc := word (fld v 0 48), sets := setBit t.sets 1 t.world }
        ∧ takes 0x14 { t with sefl := ⟨v &&& 0x3F#64, false⟩, sets := setBit t.sets 1 t.world }
        ∧ (t.world = false → takes 0x03 { t with up := { t.up with tsbr := v &&& 0xFFFFFFFFFE00#64 } }
          ∧ takes 0x17 { t with up := { t.up with edtb := v &&& 0xFFFFFFFFE000#64 } })
        ∧ (t.world = true → takes 0x03 { t with down := { t.down with tsbr := v &&& 0xFFFFFFFFFE00#64 } }
          ∧ takes 0x17 { t with down := { t.down with edtb := v &&& 0xFFFFFFFFE000#64 } })))

/-- MTS to TS (R133, R152): IPL, DOM, DDM and LE change at once; IE, KEY, WORLD and LEVEL after exactly the next three instructions, which run
in the old mode: the change waits in the shadow, each completing instruction of the thread counts it down, and MODE_CHANGE_COMMIT makes it. -/
def Obligations.ModeChangeTakesThreeInstructions : Prop :=
  ∀ (s : State) (g : Nat) (ra : GReg) (v : Word) (bits : BitVec 26) (x : Shadow),
    let t := s.thread g
    (s.ready g [ra] false = true → t.sup = true → t.greg ra = ⟨v, false⟩ → t.shadow = none → fld v 0 7 ≠ fld t.ts 0 7 →
      Completes (.mts g ra 2) s (fun u =>
        let w := u.thread g
        fld w.ts 8 6 = fld v 8 6 ∧ bit w.ts 15 = bit v 15 ∧ fld w.ts 0 7 = fld t.ts 0 7 ∧ bit w.ts 14 = bit t.ts 14
          ∧ ∃ y, w.shadow = some y ∧ y.left = 3 ∧ fld y.bits 0 7 = fld v 0 7))
    ∧ (s.ready g [] false = true → t.shadow = some x →
      Completes (.hint g bits) s (fun u => (u.thread g).shadow = some { x with left := x.left - 1 } ∧ (u.thread g).ts = t.ts))
    ∧ (g < Config.threads → s.dev.replaying (clusterOf g) = false → t.shadow = some x → x.left = 0 →
      Completes (.modeChangeCommit g) s (fun u =>
        fld (u.thread g).ts 0 7 = fld x.bits 0 7 ∧ (∀ k, 7 ≤ k → bit (u.thread g).ts k = bit t.ts k)
          ∧ { u.thread g with ts := t.ts, shadow := some x } = t ∧ (∀ h, h ≠ g → u.thread h = s.thread h) ∧ u.dev.mem = s.dev.mem))

/-- LOOP and the loop-back (R145, R146, R263): the lowest level with LN 0 takes the loop, keeping the 16 bytes of code at its start, and a count of 0 skips the body. At the end of an instruction that did not transfer control
the levels are tried from 2 down to 0, and where TS.LE is 0 none is. HINT changes nothing but the PC and what completing an instruction changes. -/
def Obligations.LoopsRunInnermostFirst : Prop :=
  ∀ (s : State) (g : Nat) (rc : GReg) (len : BitVec 16) (n : Word) (bits : BitVec 26),
    let t := s.thread g
    let level : LoopLevel := ⟨t.pc + 4, t.pc + word (8 + 4 * len.toNat), n, vals ((s.dev.ctx g).codeBytes (t.pc + 4).toNat 16)⟩
    let done := fun (u : Thread) => exec (.hint g bits) s = .next (s.withThread g { u.tickShadow with mc := none })
    let next := t.pc + 4
    let less := fun (l : LoopLevel) => { l with ln := l.ln - 1 }
    let start := fun (l : LoopLevel) => l.la - (l.la &&& 3#64)
    let ends := fun (l : LoopLevel) => l.ln ≠ 0 ∧ l.lb = next
    (s.ready g [rc] false = true → t.greg rc = ⟨n, false⟩ →
      (n ≠ 0 → t.lp0.ln = 0 → exec (.loop g rc len) s = .next (s.retired g { t with lp0 := level }))
      ∧ (n ≠ 0 → t.lp0.ln ≠ 0 → t.lp1.ln = 0 → exec (.loop g rc len) s = .next (s.retired g { t with lp1 := level }))
      ∧ (n ≠ 0 → t.lp0.ln ≠ 0 → t.lp1.ln ≠ 0 → t.lp2.ln = 0 → exec (.loop g rc len) s = .next (s.retired g { t with lp2 := level }))
      ∧ (n = 0 → (t.lp0.ln = 0 ∨ t.lp1.ln = 0 ∨ t.lp2.ln = 0) →
        exec (.loop g rc len) s = .next (s.withThread g (t.retireTo (t.pc + word (8 + 4 * len.toNat))))))
    ∧ (s.ready g [] false = true →
      (t.le = false → done { t with pc := next })
      ∧ (t.le = true → ¬ ends t.lp0 → ¬ ends t.lp1 → ¬ ends t.lp2 → done { t with pc := next })
      ∧ (t.le = true → ends t.lp2 → t.lp2.ln ≠ 1 → done { t with lp2 := less t.lp2, pc := start t.lp2 })
      ∧ (t.le = true → ends t.lp2 → t.lp2.ln = 1 → ends t.lp1 → t.lp1.ln ≠ 1 →
        done { t with lp2 := less t.lp2, lp1 := less t.lp1, pc := start t.lp1 })
      ∧ (t.le = true → ¬ ends t.lp2 → ¬ ends t.lp1 → ends t.lp0 → t.lp0.ln ≠ 1 → done { t with lp0 := less t.lp0, pc := start t.lp0 })
      ∧ (t.le = true → ends t.lp2 → t.lp2.ln = 1 → ¬ ends t.lp1 → ¬ ends t.lp0 → done { t with lp2 := less t.lp2, pc := next }))

/-- SCALL and SRET (R276-R278) in their own modes: the shadows, the world, level, key and enable of the entry register, and the way back. -/
def Obligations.SystemCallAndReturn : Prop :=
  ∀ (s : State) (g : Nat),
    let t := s.thread g
    let entry := fun (w : Bool) => if w then t.down.sentry else t.up.sentry
    s.ready g [] true = true → t.posts = [] → t.shadow = none →
    (∀ w : Bool, t.sup = false →
      ((bit (entry t.world) 53 = false ∧ w = t.world) ∨ (bit (entry t.world) 53 = true ∧ w = !t.world ∧ bit (entry w) 54 = true)) →
      Completes (.scall g) s (fun u =>
        let v := u.thread g
        v.sup = true ∧ v.world = w ∧ v.key = fld (entry w) 48 4 ∧ v.ie = bit (entry w) 52 ∧ v.le = false
          ∧ v.ipl = t.ipl ∧ v.dom = t.dom ∧ v.ddm = t.ddm ∧ v.dl = t.dl
          ∧ v.pc = word (fld (entry w) 2 46 * 4) ∧ v.sepc = word (fld (t.pc + 4) 0 48) ∧ v.sefl = t.fl ∧ v.sets = t.ts
          ∧ { v with pc := t.pc, ts := t.ts, sepc := t.sepc, sefl := t.sefl, sets := t.sets, mc := t.mc } = t
          ∧ u = s.withThread g v))
    ∧ (t.sup = true →
      exec (.sret g) s = .next (s.withThread g { t with pc := t.sepc - (t.sepc &&& 3#64), fl := t.sefl, ts := t.sets &&& 0xFF7F#64, mc := none }))

/-- Entry (R281, R284, R285), by an exception (`intr` none) or an interrupt, of a thread with no mode change pending and an empty store buffer, where
its checks pass: it uses the descriptor that R281 chooses, saves PC, TS, DETAIL and FADDR in the block, and sets the status, PC, stack
pointer, block address, LN0-LN2, ES and return ceiling; no other register changes. -/
def Obligations.EntrySavesAndSetsState : Prop :=
  ∀ (c e : Ctx) (vec : Nat) (intr : Option PendingIrq) (detail faddr : Word),
    let w0 := match intr with | some i => i.world | none => c.t.world
    let prio := match intr with | some i => i.prio | none => 0
    c.t.shadow = none → c.t.sb = [] → prio < 16 → vec < 256 → tryEnter c vec intr detail faddr = .ok e →
    ∃ (x : Descriptor) (w fwd : Bool) (d : Dev) (b : Nat),
      let old := c.t.worldRegs w
      let area := ((if c.t.sup = true ∧ c.t.world = w then (c.t.bank w 15).val &&& ~~~0xF#64 else x.stack) - 288#64).toNat
      let saved := fun (o : Nat) => ofLe ((List.range 8).map (fun i => e.d.byteAt (b + o + i)))
      chooseDescriptor c w0 vec = .ok (x, w, fwd, d) ∧ (w = w0 ↔ fwd = false)
      ∧ b + 512 = old.tsbr.toNat ∧ saved 0 = c.t.pc.toNat ∧ saved 16 % 65536 = c.t.ts.toNat % 65536 ∧ saved 24 % 256 = vec ∧ saved 32 = detail.toNat
      ∧ saved 40 = faddr.toNat
      ∧ e.t.pc = x.handler ∧ e.t.run = .running ∧ e.t.mc = none ∧ e.t.es = ⟨0, false⟩
      ∧ e.t.sup = true ∧ e.t.world = w ∧ e.t.key = fld x.ctl 4 4 ∧ e.t.ie = bit x.ctl 3 ∧ e.t.ipl = Nat.max (fld x.ctl 8 4) prio
      ∧ e.t.dom = bit x.ctl 13 ∧ e.t.ddm = bit x.ctl 14 ∧ e.t.dl = true ∧ e.t.le = true
      ∧ e.t.bank w 15 = ⟨word area, false⟩ ∧ e.t.worldRegs w = { old with tsbr := word b } ∧ e.t.worldRegs (!w) = c.t.worldRegs (!w)
      ∧ e.t.lp0 = { c.t.lp0 with ln := 0 } ∧ e.t.lp1 = { c.t.lp1 with ln := 0 } ∧ e.t.lp2 = { c.t.lp2 with ln := 0 }
      ∧ bit e.t.xceil 0 = (bit x.ctl 12 || c.t.sup) ∧ bit e.t.xceil 1 = c.t.world ∧ bit e.t.xceil 2 = fwd ∧ bit e.t.xceil 3 = intr.isSome
      ∧ fld e.t.xceil 8 8 = vec
      ∧ e.t.fl = c.t.fl ∧ e.t.cnt = c.t.cnt ∧ e.t.dacc = c.t.dacc ∧ e.t.fregs = c.t.fregs ∧ e.t.wsel = c.t.wsel ∧ e.t.wd = c.t.wd
      ∧ e.t.sepc = c.t.sepc ∧ e.t.sefl = c.t.sefl ∧ e.t.sets = c.t.sets
      ∧ (∀ p, p ≠ 215 + (if w then 16 else 0) → e.t.physGet p = c.t.physGet p)

/-- A failed entry (R293): the thread is locked up; CL_LOCK and CL_LOCKADDR take the cause and the failing address, and keep the first lockup. -/
def Obligations.FailedEntryLocksUp : Prop :=
  ∀ (c : Ctx) (vec : Nat) (intr : Option PendingIrq) (detail faddr : Word) (k : Lock),
    let o := rClLock (clusterOf c.g)
    let oa := rClLockaddr (clusterOf c.g)
    tryEnter c vec intr detail faddr = .error (.lock k) → ∃ e : Ctx, enter c vec intr detail faddr = some e
      ∧ e.t = { c.t with run := .locked }
      ∧ (bit (k.d.reg o) 31 = true → e.d.reg oa = k.d.reg oa ∧ fld (e.d.reg o) 0 48 = fld (k.d.reg o) 0 48)
      ∧ (bit (k.d.reg o) 31 = false → e.d.reg oa = word (if k.cause = 3 then 0 else k.addr % 2 ^ 48)
        ∧ bit (e.d.reg o) 31 = true ∧ fld (e.d.reg o) 28 3 = k.cause ∧ bit (e.d.reg o) 27 = k.world ∧ bit (e.d.reg o) 26 = intr.isSome)

/-- RETX (R287) of a block with no mark where the ceiling and the world of origin permit it: PC, FL, TS, ES, CNT, the loop registers, XCEIL, the bank and TSBR come
from the block, and D0-D7 stay where FILLED is 0. -/
def Obligations.ReturnRestoresTheBlock : Prop :=
  ∀ (s : State) (g : Nat),
    let t := s.thread g
    let b := (t.worldRegs t.world).tsbr.toNat
    let at_ := fun (o : Nat) => word (ofLe (vals (s.dev.readBytes (b + o) 8)))
    s.ready g [] true = true → t.shadow = none → t.sup = true → t.sb = [] → t.posts = [] →
    s.dev.checkAccess ⟨clusterOf g, t.world, true, 0⟩ .load b 296 = none →
    (∀ i, i < 296 → (s.dev.keyAddr b ≠ some (b + i) ∧ s.dev.keyAddr (b + 295) ≠ some (b + i)) ∧ (s.byte (b + i)).poison = false) →
    (bit (at_ 16) 0 = true → bit t.xceil 0 = true) → bit (at_ 16) 1 = bit t.xceil 1 → bit (at_ 48) 63 = false →
    Completes (.retx g) s (fun u =>
      let v := u.thread g
      v.pc = at_ 0 - (at_ 0 &&& 3#64) ∧ v.fl = ⟨at_ 8 &&& 0x3F#64, false⟩ ∧ v.ts = at_ 16 &&& 0xFF7F#64 ∧ v.es = ⟨at_ 56 &&& 0xFFFF#64, false⟩
        ∧ v.cnt = at_ 288 ∧ v.lp0 = ⟨at_ 80, at_ 104, at_ 128, t.lp0.head⟩ ∧ v.lp1 = ⟨at_ 88, at_ 112, at_ 136, t.lp1.head⟩
        ∧ v.lp2 = ⟨at_ 96, at_ 120, at_ 144, t.lp2.head⟩
        ∧ (v.worldRegs t.world).tsbr = word ((b + 512) % 2 ^ 48) ∧ v.xceil = at_ 152 &&& 0xFF0F#64
        ∧ v.worldRegs (!t.world) = t.worldRegs (!t.world) ∧ v.dacc = t.dacc ∧ v.fregs = t.fregs ∧ v.wsel = t.wsel ∧ v.wd = t.wd
        ∧ (∀ i, i < 16 → v.bank t.world i = ⟨at_ (160 + 8 * i), false⟩) ∧ (∀ i, i < 16 → v.bank (!t.world) i = t.bank (!t.world) i)
        ∧ (∀ h, h ≠ g → u.thread h = s.thread h))

/-- BREAK, FBAR, HINT and TRIG (R246, R261, R263, R282, R285, R505): where the entry's checks pass, BREAK takes vector 14 with code16 as DETAIL and FADDR 0; FBAR with nothing outstanding
and nothing pending goes on, and with a pending FLOATING takes vector 9 with TRAPPED as DETAIL, and PEND and TRAPPED become 0. TRIG sends trigger 4 with
its tag, and does nothing else. -/
def Obligations.BreakFbarTrigAndHintComplete : Prop :=
  ∀ (s : State) (g : Nat) (code : BitVec 16) (bits : BitVec 26) (e : Ctx),
    let t := s.thread g
    s.ready g [] false = true →
    (t.fpOut = [] → t.posts = [] → bit t.fps 19 = false → tryEnter (s.dev.freshCtx g) 14 none (code.setWidth 64) 0 = .ok e →
      exec (.brk g code) s = .next (s.withDev e.commit))
    ∧ (t.fpOut = [] → bit t.fps 19 = false → exec (.fbar g) s = .next (s.retired g t))
    ∧ (t.fpOut = [] → t.posts = [] → bit t.fps 19 = true →
      tryEnter ⟨s.dev, g, { t with fps := t.fps &&& ~~~0x1F80000#64, mc := none }⟩ 9 none (word (fld t.fps 20 5)) 0 = .ok e →
      exec (.fbar g) s = .next (s.withDev e.commit))
    ∧ exec (.hint g bits) s = .next (s.retired g t)
    ∧ Completes (.trig g code) s (fun u => (u.thread g) = t.retire (t.pc + 4) ∧ u.dev.mem = s.dev.mem
      ∧ (∀ h, h ≠ g → u.thread h = s.thread h)
      ∧ (s.dev.rf rTrgStatus 0 3 = 1 → s.dev.rb rTrgCtl 23 = true → s.dev.trg.pend = none →
        ∃ p, u.dev.trg.pend = some p ∧ p.code = 4 ∧ p.tag = code.toNat ∧ p.cluster = clusterOf g ∧ p.localId = localOf g)
      ∧ (s.dev.rb rTrgCtl 23 = false → u = s.retired g t))
/-- R309: the key check of an ordinary frame, row by row of the table: the three access columns for a frame key byte, a world, a level and a key. -/
def Obligations.StorageKeyTable : Prop :=
  ∀ (kb : Byte) (w : Who),
    let same := kb.getLsbD 3 == w.world
    let open_ := kb.getLsbD 2
    let frame := kb.toNat / 16
    (same = false → open_ = true →
      keyPermits kb w .fetch = false ∧ keyPermits kb w .load = true ∧ keyPermits kb w .store = false ∧ keyPermits kb w .atomic = false)
    ∧ (same = false → open_ = false → ∀ a, keyPermits kb w a = false)
    ∧ (same = true → w.key = 0 → ∀ a, keyPermits kb w a = w.sup)
    ∧ (same = true → w.key ≠ 0 → frame = w.key → ∀ a, keyPermits kb w a = true)
    ∧ (same = true → w.key ≠ 0 → frame ≠ w.key → open_ = true →
      keyPermits kb w .fetch = true ∧ keyPermits kb w .load = true ∧ keyPermits kb w .store = false ∧ keyPermits kb w .atomic = false)
    ∧ (same = true → w.key ≠ 0 → frame ≠ w.key → open_ = false → ∀ a, keyPermits kb w a = false)

/-- LD and FLD (R235, R257, R317) of memory, where the check of R309 passes and no store of the thread that waits overlaps: the value with its mark, extended as the
form says. No byte of memory changes but USED in the key bytes of the frames touched. An LD of the critical word CFG_BWUP (R410, R442) returns the word, and where upsets
have struck one bit of one copy it still does, and TMRFIX counts the repair. -/
def Obligations.LoadsReadMemory : Prop :=
  ∀ (s : State) (g : Nat) (r ra : GReg) (f : FReg) (sz : BitVec 2) (x : Bool) (disp : BitVec 12) (far : BitVec 14) (base : Word) (a n : Nat),
    let t := s.thread g
    let bits := ofLe (vals (s.dev.readBytes a n))
    let mark := anyPoison (s.dev.readBytes a n)
    let done := fun (v : Thread) => s.leftAs g (v.retire (t.pc + 4)) [⟨a, n, false⟩]
    t.greg ra = ⟨base, false⟩ →
    (t.noStoreIn a n = true → inControl a n = false → s.mayAccess g .load a n →
      (s.ready g [r, ra] false = true → a = (base + disp.signExtend 64).toNat → n = 2 ^ sz.toNat → (x = true → sz ≠ 3) →
        Completes (.ld g r ra sz x disp []) s
          (done (t.setGreg r ⟨if x then (BitVec.ofNat (8 * n) bits).signExtend 64 else word bits, mark⟩)))
      ∧ (s.ready g [ra] false = true → a = (base + far.signExtend 64).toNat → n = 4 * 2 ^ sz.toNat → (sz = 0 ∨ sz = 1) →
        Completes (.fld g f sz ra far) s (done (t.setFreg f ⟨word bits, mark⟩)))
      ∧ (s.ready g [ra] false = true → a = (base + far.signExtend 64).toNat → n = 16 → sz = 2 → f.toNat % 2 = 0 →
        Completes (.fld g f sz ra far) s
          (done ((t.setFreg f (regOfBytes (s.dev.readBytes a 8))).setFreg (f + 1) (regOfBytes (s.dev.readBytes (a + 8) 8))))))
    ∧ (s.ready g [r, ra] false = true → s.dev.trg.replay.inside = false → t.sup = true → t.key = 0 → t.sb = [] →
      (base + disp.signExtend 64).toNat = Config.ctlBase + rCfgBwup →
      let read := (t.setGreg r ⟨s.dev.reg rCfgBwup, false⟩).retire (t.pc + 4)
      Completes (.ld g r ra 3 false disp []) s (fun u => u.thread g = read ∧ ∀ o, u.dev.reg o = s.dev.reg o)
      ∧ ∀ i, i < 192 → bit (criticalBits rCfgBwup) (i % 64) = true →
        Completes (.ld g r ra 3 false disp [⟨Config.ctlBase + rCfgBwup, i⟩]) s (fun u => u.thread g = read
          ∧ u.dev.rf rMicStatus 8 16 = sat 65535 (s.dev.rf rMicStatus 8 16 + 1) ∧ ∀ o, o ≠ rMicStatus → u.dev.reg o = s.dev.reg o))

/-- A load that the youngest overlapping store of the thread covers takes that store's bytes and marks; one that it covers in part waits (R317). -/
def Obligations.LoadsForwardFromOwnStores : Prop :=
  ∀ (s : State) (g : Nat) (r ra : GReg) (sz : BitVec 2) (disp : BitVec 12) (base : Word) (a n : Nat) (e : StoreEntry) (older newer : List StoreEntry),
    let t := s.thread g
    s.ready g [r, ra] false = true → t.greg ra = ⟨base, false⟩ → a = (base + disp.signExtend 64).toNat → n = 2 ^ sz.toNat →
    inControl a n = false → a % 64 + n ≤ 64 → s.mayAccess g .load a n →
    t.sb = older ++ e :: newer → e.overlaps a n = true → (∀ x ∈ newer, x.overlaps a n = false) →
    (e.addr ≤ a → a + n ≤ e.addr + e.data.length →
      Completes (.ld g r ra sz false disp []) s (fun u =>
        u.thread g = (t.setGreg r (regOfBytes ((e.data.drop (a - e.addr)).take n))).retire (t.pc + 4)))
    ∧ (¬ (e.addr ≤ a ∧ a + n ≤ e.addr + e.data.length) → exec (.ld g r ra sz false disp []) s = .next s)

/-- ST and FST (R235, R257, R315, R324) of memory, where the check of R309 passes and the buffer has a free entry for each line touched: the store enters the buffer
behind the earlier ones; no byte of memory changes but USED and DIRTY in the key bytes of the frames touched. With too few free entries it waits. -/
def Obligations.StoresEnterTheBuffer : Prop :=
  ∀ (s : State) (g : Nat) (r ra : GReg) (f : FReg) (sz : BitVec 2) (disp : BitVec 12) (far : BitVec 14) (base : Word) (a n : Nat),
    let t := s.thread g
    let bytes := fun (k : Nat) (v : Reg) => withMark v.poison (leBytes k v.val.toNat)
    let ends := fun (i : Instr) (data : List PByte) =>
      (t.room a n = true → Completes i s (s.leftAs g ((t.buffered a data).retire (t.pc + 4)) [⟨a, n, true⟩]))
      ∧ (t.room a n = false → exec i s = .next s)
    t.greg ra = ⟨base, false⟩ → inControl a n = false → s.mayAccess g .store a n →
    (s.ready g [r, ra] false = true → a = (base + disp.signExtend 64).toNat → n = 2 ^ sz.toNat →
      ends (.st g r ra sz false disp) (bytes n (t.greg r)))
    ∧ (s.ready g [ra] false = true → a = (base + far.signExtend 64).toNat → n = 4 * 2 ^ sz.toNat → (sz = 0 ∨ sz = 1) →
      ends (.fst g f sz ra far) (bytes n (t.freg f)))
    ∧ (s.ready g [ra] false = true → a = (base + far.signExtend 64).toNat → n = 16 → sz = 2 → f.toNat % 2 = 0 →
      ends (.fst g f sz ra far) (bytes 8 (t.freg f) ++ bytes 8 (t.freg (f + 1))))

/-- STORE_BUFFER_DRAIN and FENCE (R308, R315, R316, R320): the oldest store becomes visible where its line is no HBM line or is held writable, and every
other byte of memory keeps its value; otherwise it waits for the directory; FENCE completes with an empty buffer and waits with any other. -/
def Obligations.DrainMakesOldestStoreVisible : Prop :=
  ∀ (s : State) (g : Nat) (e : StoreEntry) (rest : List StoreEntry),
    let t := s.thread g
    let writable := decide (Config.hbmEnd ≤ e.addr) || s.dev.holdsWritable (clusterOf g) (e.addr / 64)
    g < Config.threads → s.dev.replaying (clusterOf g) = false → s.dev.box.rst = none → s.dev.clusterLive (clusterOf g) = true → t.releasing = false →
    t.sb = e :: rest → s.dev.region e.addr ≠ .keys →
    (writable = true → Completes (.storeBufferDrain g) s (fun u =>
      u.thread g = { t with sb := rest } ∧ (∀ i (b : PByte), e.data[i]? = some b → u.dev.byteAt (e.addr + i) = b.val)
        ∧ (∀ b, (b < e.addr ∨ e.addr + e.data.length ≤ b) → u.dev.byteAt b = s.dev.byteAt b) ∧ ∀ h, h ≠ g → u.thread h = s.thread h))
    ∧ (writable = false → exec (.storeBufferDrain g) s = .next (s.withThread g { t with sb := { e with asked := true } :: rest }))
    ∧ (s.ready g [] false = true → exec (.fence g) s = .next s)
    ∧ ∀ s' : State, s'.ready g [] false = true → (s'.thread g).sb = [] → exec (.fence g) s' = .next (s'.retired g (s'.thread g))

/-- AADD, AAND, AOR, ASWP and ACAS (R258, R321) on operands with no mark, with an empty store buffer, a natural alignment, the check of R309 passed and an HBM line
held writable: the old operand goes to rd, the new one to memory, ACAS writes Z alone, and no other byte changes but USED and DIRTY in the frame's key byte. -/
def Obligations.AtomicsReadAndWriteOnce : Prop :=
  ∀ (s : State) (g : Nat) (rd ra rb rc : GReg) (sz : BitVec 2) (base b c : Word) (n : Nat),
    let t := s.thread g
    let a := base.toNat
    let m := ofLe (vals (s.dev.readBytes a n))
    let low := fun (w : Word) => w.toNat % 2 ^ (8 * n)
    let done := fun (new : Nat) (fl : Reg) (u : State) =>
      u.thread g = { t.put rd (word m) with fl := fl }.retire (t.pc + 4)
        ∧ (List.range n).map (fun i => u.dev.byteAt (a + i)) = leBytes n new
        ∧ (∀ x, (x < a ∨ a + n ≤ x) → u.dev.byteAt x = s.dev.byteAt x
          ∨ (u.dev.byteAt x = s.dev.byteAt x ||| 3#8 ∧ s.dev.keyAddr a = some x))
        ∧ ∀ h, h ≠ g → u.thread h = s.thread h
    s.ready g [rd, ra, rb, rc] true = true → t.sb = [] → (sz = 2 ∨ sz = 3) → n = 2 ^ sz.toNat → t.greg ra = ⟨base, false⟩ → a % n = 0 →
    t.greg rb = ⟨b, false⟩ → t.greg rc = ⟨c, false⟩ → anyPoison (s.dev.readBytes a n) = false →
    s.mayAccess g .atomic a n →
    (a < Config.hbmEnd → s.dev.holdsWritable (clusterOf g) (a / 64) = true) →
    Completes (.aadd g rd ra rb sz) s (done ((m + low b) % 2 ^ (8 * n)) t.fl)
    ∧ Completes (.aand g rd ra rb sz) s (done (m &&& low b) t.fl)
    ∧ Completes (.aor g rd ra rb sz) s (done (m ||| low b) t.fl)
    ∧ Completes (.aswp g rd ra rb sz) s (done (low b) t.fl)
    ∧ Completes (.acas g rd ra rb rc sz) s (done (if m = low c then low b else m) ⟨setBit t.fl.val 2 (decide (m = low c)), t.fl.poison⟩)

/-- LDM and STM (R138-R140), one transfer at a time: the lowest register of the mask moves to or from the slot; the instruction completes with the last, and otherwise stands
with the remaining mask and the next slot address. A mask of 0 moves nothing. -/
def Obligations.MultipleTransfersMoveLowestFirst : Prop :=
  ∀ (s : State) (g : Nat) (ra rb : GReg) (m : McState) (w : Word) (k : Nat),
    let t := s.thread g
    let a := m.addr.toNat
    let left := m.mask &&& ~~~(1#32 <<< k)
    let ended := fun (u : Thread) => if left = 0 then { u with mc := none }.retire (t.pc + 4) else { u with mc := some ⟨left, m.addr + 8⟩ }
    s.ready g [ra, rb] false = true → t.posts = [] →
    (t.mc = some m ∨ (t.mc = none ∧ t.greg ra = ⟨m.addr, false⟩ ∧ t.greg rb = ⟨w, false⟩ ∧ m.mask = w.setWidth 32)) →
    (m.mask = 0 → ∀ n, exec (.ldm g ra rb n) s = .next (s.retired g { t with mc := none })
      ∧ exec (.stm g ra rb n) s = .next (s.retired g { t with mc := none }))
    ∧ (k < 32 → m.mask.getLsbD k = true → (∀ j, j < k → m.mask.getLsbD j = false) →
      (s.mayAccess g .load a 8 → t.noStoreIn a 8 = true →
        Completes (.ldm g ra rb 1) s (s.leftAs g (ended (t.setGreg (BitVec.ofNat 5 k) (regOfBytes (s.dev.readBytes a 8)))) [⟨a, 8, false⟩]))
      ∧ (s.mayAccess g .store a 8 → t.room a 8 = true →
        Completes (.stm g ra rb 1) s (s.leftAs g (ended (t.buffered a (regBytes 8 (t.greg (BitVec.ofNat 5 k))))) [⟨a, 8, true⟩])))

/-- LINE_FILL, WRITE_GRANT, LINE_INVALIDATION and INSTRUCTION_LINE_FETCH (R154, R302, R304, R312, R316, R319): the line enters the store as granted, or becomes writable, or is held no more, or no more
writable. No other line or cluster and no byte or mark of memory changes, where no drain waits for the line. The bytes of a line of the thread's own code store come into its
fetch buffer, and nothing else of any thread changes. -/
def Obligations.LinesAreFilledGrantedAndTaken : Prop :=
  ∀ (s : State) (c line g : Nat) (writable : Bool),
    let t := s.thread g
    let x := s.dev.cluster c
    let same := fun (u : State) => (∀ e, e ≠ c → u.dev.cluster e = s.dev.cluster e) ∧ u.dev.mem.bytes = s.dev.mem.bytes
      ∧ u.dev.mem.marks = s.dev.mem.marks ∧ ∀ h, u.thread h = s.thread h
    (c < Config.clusters → s.dev.clusterLive c = true → (∀ h, clusterOf h = c → ∀ e ∈ (s.thread h).sb, e.asked = false) →
      (64 * line < Config.hbmEnd → 0 < s.dev.cacheSets c → s.dev.heldElsewhere c line (!writable) = false → x.lines.all (fun y => y.line != line) = true →
        (x.lines.filter (fun y => y.line % s.dev.cacheSets c == line % s.dev.cacheSets c)).length < 16 → s.dev.hbmUps line = [] →
        Completes (.lineFill c line writable []) s (fun u => same u
          ∧ ∃ w, w < 16 ∧ u.dev.cluster c = { x with lines := ⟨line, w, writable, none⟩ :: x.lines }
            ∧ ∀ y ∈ x.lines, y.line % s.dev.cacheSets c = line % s.dev.cacheSets c → y.way ≠ w))
      ∧ (s.dev.heldElsewhere c line false = false → x.lines.any (fun y => y.line == line) = true →
        Completes (.writeGrant c line) s (fun u => same u
          ∧ u.dev.cluster c = { x with lines := x.lines.map (fun y => if y.line = line then { y with writable := true } else y) }))
      ∧ Completes (.lineInvalidation c line false) s (fun u => same u
          ∧ u.dev.cluster c = { x with lines := x.lines.filter (fun y => y.line != line) })
      ∧ Completes (.lineInvalidation c line true) s (fun u => same u
          ∧ u.dev.cluster c = { x with lines := x.lines.map (fun y => if y.line = line then { y with writable := false, old := none } else y) }))
    ∧ (g < Config.threads → s.dev.replaying (clusterOf g) = false → s.dev.clusterLive (clusterOf g) = true → t.run = .running →
      s.dev.region (64 * line) = .code (clusterOf g) → (line = t.pc.toNat / 64 ∨ line = t.pc.toNat / 64 + 1) →
      Completes (.instructionLineFetch g line) s (fun u =>
        u.thread g = { t with fetchLine := some ⟨line, s.dev.readBytes (64 * line) 64⟩ } ∧ (∀ h, h ≠ g → u.thread h = s.thread h) ∧ u.dev.mem.marks = s.dev.mem.marks
          ∧ ∀ b, u.dev.byteAt b = s.dev.byteAt b ∨ (u.dev.byteAt b = s.dev.byteAt b ||| 2#8 ∧ s.dev.keyAddr (64 * line) = some b)))

/-- DADD, DSUB, DMUL, DMAC and DCMP on accumulators (R163, R165, R177, R178, R180, R181), and DDIV (R179), with no mark on a source and no lazy fill pending: the exact
result where it fits 64 digits, its low 64 digits under masked overflow, the unmasked overflow leaves every accumulator and FL, and a division gives
quotient and remainder; a masked division by zero sets DZ alone. -/
def Obligations.AccumulatorArithmeticIsExact : Prop :=
  ∀ (s : State) (g : Nat) (dk dj dm : DReg) (x y z : Int),
    let t := s.thread g
    let flagged := fun (u : Thread) (v : Int) (ov : Bool) => u.withNzcv (decide (v < 0)) (decide (v = 0)) false ov
    let arith := fun (i : Instr) (r : Int) =>
      (∀ v ov, DecimalFits t r 64 v ov → exec i s = .next (s.retired g (flagged (t.setAcc dk ⟨v, false⟩) v ov)))
      ∧ (10 ^ 64 ≤ r.natAbs → t.dom = false → Completes i s (fun u => (u.thread g).dacc = t.dacc ∧ (u.thread g).fl = t.fl))
    s.ready g [] true = true → t.dl = false → t.acc dk = ⟨x, false⟩ → t.acc dj = ⟨y, false⟩ → t.acc dm = ⟨z, false⟩ →
    arith (.dadd g (.acc dk dj)) (x + y) ∧ arith (.dsub g (.acc dk dj)) (x - y) ∧ arith (.dmul g (.acc dk dj)) (x * y)
    ∧ arith (.dmac g dk dj dm) (x + y * z)
    ∧ exec (.dcmp g (.acc dk dj)) s = .next (s.retired g (t.withNzcv (decide (x < y)) (decide (x = y)) (decide (y ≤ x)) false))
    ∧ (y ≠ 0 → ∃ q r : Int, x = q * y + r ∧ r.natAbs < y.natAbs ∧ (r = 0 ∨ (r < 0 ↔ x < 0))
      ∧ exec (.ddiv g (.acc dk dj) dm) s =
        .next (s.retired g (flagged (if dm = dk then t.setAcc dk ⟨q, false⟩ else (t.setAcc dk ⟨q, false⟩).setAcc dm ⟨r, false⟩) q false)))
    ∧ (y = 0 → t.ddm = true →
      exec (.ddiv g (.acc dk dj) dm) s = .next (s.retired g { t with fl := ⟨setBit t.fl.val 5 true, t.fl.poison⟩ }))

/-- DSHF, DCVB and DCVD (R182, R187), with no mark on a source and no lazy fill pending: a left shift multiplies by a power of ten, a right shift is the nearest
multiple (halves away from zero for mode 0, to even for mode 1, toward zero for mode 2); conversions keep the value, or give its low 64 bits under
masked overflow. -/
def Obligations.AccumulatorsShiftAndConvert : Prop :=
  ∀ (s : State) (g : Nat) (dk : DReg) (rd ra : GReg) (n : BitVec 7) (rm : BitVec 2) (x : Int) (w : Word),
    let t := s.thread g
    let flagged := fun (u : Thread) (v : Int) (ov : Bool) => u.withNzcv (decide (v < 0)) (decide (v = 0)) false ov
    let ends := fun (i : Instr) (v : Int) (ov : Bool) => exec i s = .next (s.retired g (flagged (t.setAcc dk ⟨v, false⟩) v ov))
    s.ready g [] true = true → t.dl = false →
    (t.acc dk = ⟨x, false⟩ →
      (rm ≠ 3 → 0 ≤ n.toInt → ∀ v ov, DecimalFits t (x * 10 ^ n.toInt.toNat) 64 v ov → ends (.dshf g dk n rm) v ov)
      ∧ (rm ≠ 3 → n.toInt < 0 → x.natAbs < 10 ^ 64 → ∃ v : Int, ends (.dshf g dk n rm) v false
        ∧ (rm = 2 → v = x.tdiv (10 ^ (-n.toInt).toNat))
        ∧ (rm = 0 ∨ rm = 1 → 2 * (x - v * 10 ^ (-n.toInt).toNat).natAbs ≤ 10 ^ (-n.toInt).toNat)
        ∧ (rm = 0 → 2 * (x - v * 10 ^ (-n.toInt).toNat).natAbs = 10 ^ (-n.toInt).toNat → x.natAbs < v.natAbs * 10 ^ (-n.toInt).toNat)
        ∧ (rm = 1 → 2 * (x - v * 10 ^ (-n.toInt).toNat).natAbs = 10 ^ (-n.toInt).toNat → v % 2 = 0))
      ∧ (∀ u : Bool, ∃ v : Word,
        let fit := if u then (v.toNat : Int) = x else v.toInt = x
        ((v.toNat : Int) - x) % 2 ^ 64 = 0
        ∧ (fit → exec (.dcvb g rd dk u) s = .next (s.retired g (flagged (t.put rd v) x false)))
        ∧ (¬ fit → t.dom = true → exec (.dcvb g rd dk u) s = .next (s.retired g (flagged (t.put rd v) x true)))))
    ∧ (t.greg ra = ⟨w, false⟩ → ends (.dcvd g dk ra false) w.toInt false ∧ ends (.dcvd g dk ra true) w.toNat false)

/-- DADD, DSUB, DMUL, DDIV and DCMP on storage (R158, R160, R173, R177-R180), where the checks pass, no store of the thread that waits overlaps an operand, and the fields
are valid and carry no mark: the result goes to operand 1 with a preferred sign, as a store of the thread; DCMP stores nothing. -/
def Obligations.StorageArithmeticIsExact : Prop :=
  ∀ (s : State) (g : Nat) (ba bb : GReg) (l1 l2 : BitVec 5) (d1 d2 : BitVec 16) (dm : DReg) (p q : Word) (a b : Nat) (x y : Int),
    let t := s.thread g
    let n := l1.toNat + 1
    let k := l2.toNat + 1
    let ops : DOps := .ss ba bb l1 l2 d1 d2
    let reads := [⟨a, n, true⟩, ⟨b, k, false⟩]
    let ends := fun (i : Instr) (v : Int) (ov : Bool) => Completes i s (fun u => ∃ bs : List Byte,
      bs.length = n ∧ IsPacked bs v ∧ nibble bs (2 * n - 1) = (if v < 0 then 0xD else 0xC)
        ∧ s.leftAs g (((t.buffered a (clean bs)).withNzcv (decide (v < 0)) (decide (v = 0)) false ov).retire (t.pc + 8)) reads u)
    s.ready g [ba, bb] true = true → t.greg ba = ⟨p, false⟩ → t.greg bb = ⟨q, false⟩ →
    a = (p + d1.signExtend 64).toNat → b = (q + d2.signExtend 64).toNat → offKeys a n → offKeys b k →
    s.mayAccess g .load b k → t.noStoreIn a n = true → t.noStoreIn b k = true →
    anyPoison (s.dev.readBytes a n) = false → anyPoison (s.dev.readBytes b k) = false →
    IsPacked (vals (s.dev.readBytes a n)) x → IsPacked (vals (s.dev.readBytes b k)) y →
    (s.mayAccess g .load a n → Completes (.dcmp g ops) s (s.leftAs g
        ((t.withNzcv (decide (x < y)) (decide (x = y)) (decide (y ≤ x)) false).retire (t.pc + 8)) [⟨a, n, false⟩, ⟨b, k, false⟩]))
    ∧ (s.mayAccess g .store a n → t.room a n = true →
      (∀ v ov, DecimalFits t (x + y) (2 * n - 1) v ov → ends (.dadd g ops) v ov)
      ∧ (∀ v ov, DecimalFits t (x - y) (2 * n - 1) v ov → ends (.dsub g ops) v ov)
      ∧ (∀ v ov, DecimalFits t (x * y) (2 * n - 1) v ov → ends (.dmul g ops) v ov)
      ∧ (y ≠ 0 → ends (.ddiv g ops dm) (x.tdiv y) false)
      ∧ (y = 0 → t.ddm = true → Completes (.ddiv g ops dm) s (s.leftAs g
        (({ t with fl := ⟨setBit t.fl.val 5 true, t.fl.poison⟩ } : Thread).retire (t.pc + 8)) reads)))

/-- DLDA, DSTA, DPACK, DUNPK and DTST (R161, R162, R184-R186, R189) of fields with no mark, where the checks pass and no store of the thread that waits overlaps: the value
that a valid field spells, and the field that a value gives; DTST says in DI alone whether the field is valid. -/
def Obligations.DecimalFieldsMoveAndConvert : Prop :=
  ∀ (s : State) (g : Nat) (dk : DReg) (ba bb : GReg) (l1 l2 : BitVec 5) (d1 d2 : BitVec 16) (d : BitVec 12) (m : BitVec 2) (p q : Word) (a b : Nat)
    (x : Int),
    let t := s.thread g
    let n := l1.toNat + 1
    let k := l2.toNat + 1
    let flagged := fun (u : Thread) (v : Int) (ov : Bool) => u.withNzcv (decide (v < 0)) (decide (v = 0)) false ov
    let packs := fun (i : Instr) (len : Nat) (l : List Operand) (v : Int) (ov : Bool) => Completes i s (fun u => ∃ bs : List Byte,
      bs.length = n ∧ IsPacked bs v ∧ nibble bs (2 * n - 1) = (if v < 0 then 0xD else 0xC)
        ∧ s.leftAs g ((flagged (t.buffered a (clean bs)) v ov).retire (t.pc + word len)) l u)
    s.ready g [ba, bb] true = true → t.greg ba = ⟨p, false⟩ → t.greg bb = ⟨q, false⟩ → t.dl = false →
    (a = (p + d.signExtend 64).toNat →
      (s.mayAccess g .load a n → t.noStoreIn a n = true → anyPoison (s.dev.readBytes a n) = false → IsPacked (vals (s.dev.readBytes a n)) x →
        Completes (.dlda g dk ba l1 d) s (s.leftAs g ((flagged (t.setAcc dk ⟨x, false⟩) x false).retire (t.pc + 4)) [⟨a, n, false⟩]))
      ∧ (s.mayAccess g .store a n → t.room a n = true → t.acc dk = ⟨x, false⟩ →
        ∀ v ov, DecimalFits t x (2 * n - 1) v ov → packs (.dsta g dk ba l1 d) 4 [⟨a, n, true⟩] v ov))
    ∧ (a = (p + d1.signExtend 64).toNat → s.mayAccess g .load a n → t.noStoreIn a n = true → anyPoison (s.dev.readBytes a n) = false →
      ∀ bad : Bool, (bad = true ↔ ¬ ∃ v, IsPacked (vals (s.dev.readBytes a n)) v) →
        Completes (.dtst g ba l1 d1) s (s.leftAs g
          (({ t with fl := ⟨setBit t.fl.val 4 bad, t.fl.poison⟩ } : Thread).retire (t.pc + 8)) [⟨a, n, false⟩]))
    ∧ (a = (p + d1.signExtend 64).toNat → b = (q + d2.signExtend 64).toNat → m ≠ 3 → offKeys a n → offKeys b k → s.mayAccess g .store a n →
      s.mayAccess g .load b k → t.room a n = true → t.noStoreIn b k = true → anyPoison (s.dev.readBytes b k) = false →
      (IsZoned m.toNat (vals (s.dev.readBytes b k)) x → ∀ v ov, DecimalFits t x (2 * n - 1) v ov →
        packs (.dpack g ba bb l1 l2 m d1 d2) 8 [⟨a, n, true⟩, ⟨b, k, false⟩] v ov)
      ∧ (IsPacked (vals (s.dev.readBytes b k)) x → ∀ v ov, DecimalFits t x (if m = 0 then n else n - 1) v ov →
        Completes (.dunpk g ba bb l1 l2 m d1 d2) s (fun u => ∃ bs : List Byte, bs.length = n
          ∧ IsZoned m.toNat bs (if m = 0 then (v.natAbs : Int) else v) ∧ (0 ≤ v → 0x2D#8 ∉ bs)
          ∧ s.leftAs g ((flagged (t.buffered a (clean bs)) v ov).retire (t.pc + 8)) [⟨a, n, true⟩, ⟨b, k, false⟩] u)))

/-- The first use of an accumulator after an entry (R142, R143): where TS.DL is 1 and the store buffer is empty, the 288 bytes of the reserved area take
D0-D7, FILLED is written to the block, DL becomes 0, and the instruction does the rest of its work. -/
def Obligations.FirstAccumulatorUseFillsTheArea : Prop :=
  ∀ (s : State) (g : Nat) (dk dj : DReg) (x y : Int) (z : LazyArea),
    let t := s.thread g
    s.ready g [] true = true → t.dl = true → t.lazySave = some z → t.sb = [] → t.acc dk = ⟨x, false⟩ → t.acc dj = ⟨y, false⟩ →
    (z.block + 56 ≤ z.area ∨ z.area + 288 ≤ z.block + 48) →
    Completes (.dcmp g (.acc dk dj)) s (fun u =>
      let at_ := fun (a : Nat) => (u.dev.byteAt a).toNat
      u.thread g = (({ t with ts := setBit t.ts 14 false } : Thread).withNzcv (decide (x < y)) (decide (x = y)) (decide (y ≤ x)) false).retire (t.pc + 4)
      ∧ (∀ i j, i < 8 → j < 32 → let v := (t.acc (BitVec.ofNat 3 i)).val.natAbs / 100 ^ (31 - j)
        at_ (z.area + 32 * i + j) = 16 * (v / 10 % 10) + v % 10)
      ∧ (∀ i, i < 8 → at_ (z.area + 256 + i) = if (t.acc (BitVec.ofNat 3 i)).val < 0 then 0xD else 0xC)
      ∧ (∀ i, 264 ≤ i → i < 288 → at_ (z.area + i) = 0)
      ∧ ofLe ((List.range 8).map (fun i => u.dev.byteAt (z.block + 48 + i))) = z.area % 2 ^ 48 + 2 ^ 63
      ∧ (∀ a, (a < z.area ∨ z.area + 288 ≤ a) → (a < z.block + 48 ∨ z.block + 56 ≤ a) → u.dev.byteAt a = s.dev.byteAt a)
      ∧ ∀ h, h ≠ g → u.thread h = s.thread h)

/-- MOVS and MOVT (R197, R199, R201, R205, R206), one step, where the checks pass and no store of the thread that waits overlaps a source: up to 16 bytes, each stored before
the next is read, enter the buffer as one store; the pointers and the count move on; the form completes when the count is 0. MOVT takes
each byte's entry of its table. -/
def Obligations.StringMovesGoForward : Prop :=
  ∀ (s : State) (g : Nat) (rd rs rn rt : GReg) (p q tb cnt : Word) (k : Nat) (byte : Byte),
    let t := s.thread g
    let a := p.toNat
    let b := q.toNat
    let ends := fun (i : Instr) (data : List PByte) (ws : List (GReg × Reg)) (l : List Operand) => Completes i s (fun u => ∃ w : Thread,
      (t.buffered a data).writes ((rd, ⟨p + word k, false⟩) :: (rn, ⟨cnt - word k, false⟩) :: ws) w
        ∧ s.leftAs g (if cnt.toNat ≤ 16 then w.retire (t.pc + 8) else { w with mc := none }) (⟨a, k, true⟩ :: l) u)
    let entry := fun (i : Nat) => (tb + (s.byte (b + i)).val.setWidth 64).toNat
    s.ready g [rd, rs, rn, rt] false = true → t.greg rd = ⟨p, false⟩ → t.greg rn = ⟨cnt, false⟩ → rd ≠ 0 → rn ≠ 0 → rd ≠ rn →
    (cnt = 0 → rs ≠ 0 → rs ≠ rd → rs ≠ rn → ∀ n,
      exec (.movs g rd rs rn false 0 n) s = .next (s.completed g s.dev t 8)
      ∧ (rt ≠ 0 → rt ≠ rd → rt ≠ rn → rt ≠ rs → exec (.movt g rd rs rn rt n) s = .next (s.completed g s.dev t 8)))
    ∧ (cnt ≠ 0 → k = Nat.min 16 cnt.toNat → s.mayAccess g .store a k → t.room a k = true →
      ends (.movs g rd 0 rn true byte 1) (List.replicate k ⟨byte, false⟩) [] []
      ∧ (t.greg rs = ⟨q, false⟩ → rs ≠ 0 → rs ≠ rd → rs ≠ rn → s.mayAccess g .load b k → t.noStoreIn b k = true → offKeys b k →
        (∃ data : List PByte, data.length = k
          ∧ (∀ i, i < k → data[i]? = if a ≤ b + i ∧ b < a then data[b + i - a]? else some (s.byte (b + i)))
          ∧ ends (.movs g rd rs rn false 0 1) data [(rs, ⟨q + word k, false⟩)] [⟨b, k, false⟩])
        ∧ (t.greg rt = ⟨tb, false⟩ → rt ≠ 0 → rt ≠ rd → rt ≠ rn → rt ≠ rs → (a + k ≤ b ∨ b + k ≤ a) →
          (∀ i, i < k → (s.byte (b + i)).poison = false ∧ s.mayAccess g .load (entry i) 1 ∧ t.noStoreIn (entry i) 1 = true
            ∧ offKeys (entry i) 1 ∧ (entry i < a ∨ a + k ≤ entry i)) →
          ends (.movt g rd rs rn rt 1) ((List.range k).map (fun i => s.byte (entry i))) [(rs, ⟨q + word k, false⟩)]
            (⟨b, k, false⟩ :: (List.range k).map (fun i => ⟨entry i, 1, false⟩)))))

/-- CMPS, SCAN and SCTB (R207-R209) of bytes with no mark, where the checks pass and no store of the thread that waits overlaps: they pass the `j` bytes before the first that
decides and stop there with its flags, the pointers at it and the count of what remains; with none, the flags say so. -/
def Obligations.StringSearchesStopAtTheFirst : Prop :=
  ∀ (s : State) (g : Nat) (rd rs rn rt : GReg) (p q tb cnt : Word) (j n : Nat) (ne : Bool) (byte : Byte),
    let t := s.thread g
    let a := p.toNat
    let b := q.toNat
    let m := Nat.min (j + 1) cnt.toNat
    let left : GReg × Reg := (rn, ⟨cnt - word j, false⟩)
    let src : GReg × Reg := (rs, ⟨q + word j, false⟩)
    let ends := fun (i : Instr) (fl : Thread → Thread) (ws : List (GReg × Reg)) (l : List Operand) =>
      Completes i s (fun u => ∃ w : Thread, (fl t).writes ws w ∧ s.leftAs g (w.retire (t.pc + 8)) l u)
    let found := fun (u : Thread) => u.withNzcv false true false false
    let none_ := fun (u : Thread) => u.withNzcv false false false false
    let entry := fun (i : Nat) => (tb + (s.byte (b + i)).val.setWidth 64).toNat
    let stops := fun (i : Nat) => ((s.byte (b + i)).val == byte) != ne
    let plain := fun (x k : Nat) => s.mayAccess g .load x k ∧ t.noStoreIn x k = true ∧ offKeys x k ∧ ∀ i, i < k → (s.byte (x + i)).poison = false
    s.ready g [] true = true → t.greg rs = ⟨q, false⟩ → t.greg rn = ⟨cnt, false⟩ → rs ≠ 0 → rn ≠ 0 → rs ≠ rn → j ≤ cnt.toNat → j < 16 * n →
    plain b m →
    (t.greg rd = ⟨p, false⟩ → rd ≠ 0 → rd ≠ rs → rd ≠ rn → plain a m → (∀ i, i < j → (s.byte (a + i)).val = (s.byte (b + i)).val) →
      (j = cnt.toNat → ends (.cmps g rd rs rn n) (fun u => u.withNzcv false true true false) [(rd, ⟨p + word j, false⟩), src, left]
        [⟨a, m, false⟩, ⟨b, m, false⟩])
      ∧ (j < cnt.toNat → (s.byte (a + j)).val ≠ (s.byte (b + j)).val → ends (.cmps g rd rs rn n)
        (fun u => u.withNzcv (decide ((s.byte (a + j)).val < (s.byte (b + j)).val)) false (decide ((s.byte (b + j)).val ≤ (s.byte (a + j)).val)) false)
        [(rd, ⟨p + word j, false⟩), src, left] [⟨a, m, false⟩, ⟨b, m, false⟩]))
    ∧ ((∀ i, i < j → stops i = false) →
      (j = cnt.toNat → ends (.scan g rs rn ne byte n) none_ [src, left] [⟨b, m, false⟩])
      ∧ (j < cnt.toNat → stops j = true → ends (.scan g rs rn ne byte n) found [src, left] [⟨b, m, false⟩]))
    ∧ (t.greg rt = ⟨tb, false⟩ → rt ≠ 0 → rt ≠ rs → rt ≠ rn → rd ≠ rs → rd ≠ rn → rd ≠ rt → (∀ i, i < m → plain (entry i) 1) →
      (∀ i, i < j → (s.byte (entry i)).val = 0) →
      let l : List Operand := ⟨b, m, false⟩ :: (List.range m).map (fun i => ⟨entry i, 1, false⟩)
      (j = cnt.toNat → ends (.sctb g rd rs rn rt n) none_ [src, left] l)
      ∧ (j < cnt.toNat → (s.byte (entry j)).val ≠ 0 →
        ends (.sctb g rd rs rn rt n) found [(rd, ⟨(s.byte (entry j)).val.setWidth 64, false⟩), src, left] l))

/-- EDIT and EDLOC (R203, R210-R215) of one pattern byte with no mark, where the checks pass and no store of the thread that waits overlaps: the byte written, the currency symbol before
it, EDLOC's location, each field of ES, and N and Z. -/
def Obligations.EditWritesOneBytePerPatternByte : Prop :=
  ∀ (s : State) (g : Nat) (rd rs rn rt rk : GReg) (p q pat e old : Word) (c b : Byte) (sym : Byte) (loc : Bool) (n : Nat),
    let t := s.thread g
    let act := bit e 7
    let isDigit := act && !bit e 5 && (c == 1 || c == 2 || c == 5)
    let place := act && (c == 1 || c == 2 || c == 5)
    let flt := bit e 6 || (place && c == 5 && !bit e 2)
    let hi := b.toNat / 16
    let lo := b.toNat % 16
    let d := if bit e 1 then lo else hi
    let sign := isDigit && !bit e 1 && decide (9 < lo)
    let shown := isDigit && (bit e 2 || decide (d ≠ 0))
    let before := shown && !bit e 2 && flt
    let forced := place && c == 2 && !bit e 2 && !shown
    let fill : Byte := BitVec.ofNat 8 (fld e 8 8)
    let out : Byte :=
      if act = false then c
      else if shown then BitVec.ofNat 8 (0x30 + d)
      else if forced && flt then sym
      else if place || c == 3 then fill
      else if c == 4 then (if bit e 3 then 0x2D else fill)
      else if bit e 2 then c else fill
    let clear := act && c == 3
    let neg := if act = false then false else if clear then false else if sign then decide (lo = 0xB ∨ lo = 0xD) else bit e 3
    let zero := if act = false then true else if clear then true else bit e 4 && !(isDigit && decide (d ≠ 0))
    let ops := [⟨pat.toNat, 1, false⟩, ⟨p.toNat, 1, true⟩] ++ (if isDigit then [⟨q.toNat, 1, false⟩] else [])
      ++ (if before then [⟨p.toNat - 1, 1, true⟩] else [])
    let data : List PByte := if before then [⟨sym, false⟩, ⟨out, false⟩] else [⟨out, false⟩]
    let start := if before then p.toNat - 1 else p.toNat
    let i : Instr := if loc then .edloc g rd rs rn rt rk sym n else .edit g rd rs rn rt sym n
    s.ready g [] true = true → [rd, rs, rn, rt, rk].Nodup → 0 ∉ [rd, rs, rn, rt, rk] → 0 < n →
    t.greg rd = ⟨p, false⟩ → t.greg rs = ⟨q, false⟩ → t.greg rn = ⟨1, false⟩ → t.greg rt = ⟨pat, false⟩ → t.greg rk = ⟨old, false⟩ →
    t.es = ⟨e, false⟩ → s.byte pat.toNat = ⟨c, false⟩ → s.mayAccess g .load pat.toNat 1 → s.mayAccess g .store p.toNat 1 →
    (isDigit = true → s.byte q.toNat = ⟨b, false⟩ ∧ d ≤ 9 ∧ s.mayAccess g .load q.toNat 1 ∧ t.noStoreIn q.toNat 1 = true ∧ offKeys q.toNat 1) →
    (before = true → 0 < p.toNat ∧ s.mayAccess g .store (p.toNat - 1) 1) → t.room start data.length = true →
    t.noStoreIn pat.toNat 1 = true → offKeys pat.toNat 1 →
    Completes i s (fun u => ∃ (f : Word) (w : Thread),
      (({ t.buffered start data with es := ⟨f, false⟩ } : Thread).withNzcv (neg && !zero) zero false false).writes
        ([(rd, ⟨p + 1, false⟩), (rt, ⟨pat + 1, false⟩), (rn, ⟨0, false⟩)]
          ++ (if isDigit && (bit e 1 || sign) then [(rs, ⟨q + 1, false⟩)] else [])
          ++ (if loc && shown && !bit e 0 then [(rk, ⟨p, false⟩)] else [])) w
      ∧ s.leftAs g (w.retire (t.pc + 8)) ops u
      ∧ bit f 7 = false ∧ bit f 6 = false ∧ bit f 5 = (act && !clear && (bit e 5 || sign)) ∧ bit f 4 = zero ∧ bit f 3 = neg
      ∧ bit f 2 = (act && !clear && (bit e 2 || shown || forced))
      ∧ bit f 1 = (act && (if isDigit && !sign then !bit e 1 else bit e 1)) ∧ bit f 0 = (act && !clear && (bit e 0 || shown))
      ∧ fld f 8 8 = if act then fld e 8 8 else c.toNat)

/-- MOVE, MOVTE and STE, and REP of each (R148-R150, R218-R220), where the checks pass and no store of the thread that waits overlaps a source: an element is read whole and enters
the buffer as one store, and the pointers move on; REP runs its element, counts CNT down, and ends at 0. -/
def Obligations.ElementsAndRepeatAdvance : Prop :=
  ∀ (s : State) (g : Nat) (rd rs rt : GReg) (sz : BitVec 2) (p q tb : Word) (k : Nat),
    let t := s.thread g
    let a := p.toNat
    let b := q.toNat
    let second := fun (x : GReg) (z : BitVec 2) (minor : BitVec 6) => 0x34#6 ++ rd ++ rs ++ x ++ 0#3 ++ z ++ minor
    let runs := fun (i r : Instr) (data : List PByte) (ws : List (GReg × Reg)) (l : List Operand) =>
      Completes i s (fun u => ∃ w : Thread, (t.buffered a data).writes ws w ∧ s.leftAs g (w.retire (t.pc + 4)) l u)
      ∧ (t.cnt ≠ 0 → Completes r s (fun u => ∃ w : Thread, ({ t.buffered a data with cnt := t.cnt - 1 } : Thread).writes ws w
        ∧ s.leftAs g (if t.cnt = 1 then w.retire (t.pc + 8) else { w with mc := none }) l u))
      ∧ (t.cnt = 0 → exec r s = .next (s.completed g s.dev t 8))
    let entry := (tb + (s.byte b).val.setWidth 64).toNat
    s.ready g [rd, rs, rt] false = true → t.greg rd = ⟨p, false⟩ → rd ≠ 0 → s.mayAccess g .store a k → t.room a k = true →
    (k = 2 ^ sz.toNat → runs (.ste g rd rs sz) (.rep g 0 (second 0 sz 2) 1) (regBytes k (t.greg rs)) [(rd, ⟨p + word k, false⟩)] [⟨a, k, true⟩])
    ∧ (k = 2 ^ sz.toNat → rs ≠ 0 → rs ≠ rd → t.greg rs = ⟨q, false⟩ → s.mayAccess g .load b k → t.noStoreIn b k = true → offKeys b k →
      runs (.move g rd rs sz) (.rep g 0 (second 0 sz 0) 1) (s.dev.readBytes b k) [(rd, ⟨p + word k, false⟩), (rs, ⟨q + word k, false⟩)]
        [⟨b, k, false⟩, ⟨a, k, true⟩])
    ∧ (k = 1 → rs ≠ 0 → rt ≠ 0 → rs ≠ rd → rt ≠ rd → rs ≠ rt → t.greg rs = ⟨q, false⟩ → t.greg rt = ⟨tb, false⟩ →
      s.byte b = ⟨(s.byte b).val, false⟩ → s.mayAccess g .load b 1 → t.noStoreIn b 1 = true → offKeys b 1 →
      s.mayAccess g .load entry 1 → t.noStoreIn entry 1 = true → offKeys entry 1 →
      runs (.movte g rd rs rt) (.rep g 0 (second rt 0 1) 1) [s.byte entry] [(rd, ⟨p + 1, false⟩), (rs, ⟨q + 1, false⟩)]
        [⟨b, 1, false⟩, ⟨entry, 1, false⟩, ⟨a, 1, true⟩])

/-- FADD, FSUB, FMUL, FDIV, FSQRT, FMA, FQUANT, FCVT and FCMP (R230, R233, R237-R241, R245) of operands with no mark: the result is written in its format as the
instruction issues, the exceptions it raises wait with the operation, and FCMP writes FL. The special values give the results of R237, the first NaN
operand is the result of R238, and an exact product, quotient or sum is rounded once. -/
def Obligations.FloatingResultsAreWrittenAtIssue : Prop :=
  ∀ (s : State) (g : Nat) (fmt dst : BitVec 2) (fd fa fb fc : FReg) (a b c : FVal),
    let t := s.thread g
    let r := t.rnd
    let f := fmtOf fmt
    let ok := fun (x : FReg) => fmt = 3 → x.toNat % 2 = 0
    let ends := fun (i : Instr) (z : BitVec 2) (x : FRes) => exec i s = .next (s.retired g
      { t.fWrite z fd (fEncode z x.v) with fpOut := t.fpOut ++ [⟨t.pc, x.raised⟩] })
    let bad : FRes := ⟨.nan false false 0, fIO⟩
    s.ready g [] true = true → t.fOperand fmt fa = some a → t.fOperand fmt fb = some b → t.fOperand fmt fc = some c → ok fa → ok fb → ok fc →
    (ok fd →
      ends (.fadd g fmt fd fa fb) fmt (fAdd f r false a b) ∧ ends (.fsub g fmt fd fa fb) fmt (fAdd f r true a b)
      ∧ ends (.fmul g fmt fd fa fb) fmt (fMul f r a b) ∧ ends (.fdiv g fmt fd fa fb) fmt (fDiv f r a b)
      ∧ ends (.fsqrt g fmt fd fa) fmt (fSqrt f r a) ∧ ends (.fma g fmt fd fa fb fc) fmt (fFma f r a b c)
      ∧ (2 ≤ fmt.toNat → ends (.fquant g fmt fd fa fb) fmt (fQuant f r a b)))
    ∧ (dst ≠ fmt → (dst = 3 → fd.toNat % 2 = 0) → ends (.fcvt g fmt dst fd fa) dst (fConvert fmt dst r a))
    ∧ (∃ lt eq : Bool, exec (.fcmp g fmt fa fb) s = .next (s.retired g
        { (if a.isNan || b.isNan then t.withNzcv false false true true else t.withNzcv lt eq (!lt) false) with
          fpOut := t.fpOut ++ [⟨t.pc, if a.signals || b.signals then fIO else 0⟩] })
      ∧ ∀ sa ma ea sb mb eb, a = .fin sa ma ea → b = .fin sb mb eb → ∀ k, k ≤ ea → k ≤ eb →
        let x : Int := (if sa then -1 else 1) * (ma * f.radix ^ (ea - k).toNat : Nat)
        let y : Int := (if sb then -1 else 1) * (mb * f.radix ^ (eb - k).toNat : Nat)
        (lt = true ↔ x < y) ∧ (eq = true ↔ x = y))
    ∧ (∀ sa sg p, a = .nan sa sg p → let x : FRes := ⟨.nan sa false p, if sg || b.signals then fIO else 0⟩
      fAdd f r false a b = x ∧ fAdd f r true a b = x ∧ fMul f r a b = x ∧ fDiv f r a b = x)
    ∧ (∀ sa, a = .inf sa → (b = .inf (!sa) → fAdd f r false a b = bad) ∧ (b = .inf sa → fAdd f r true a b = bad ∧ fDiv f r a b = bad)
      ∧ (b.isZero = true → fMul f r a b = bad ∧ fFma f r a b c = ⟨if c.isNan then quiet c else .nan false false 0, fIO⟩))
    ∧ (∀ sa ma ea sb mb eb, a = .fin sa ma ea → b = .fin sb mb eb →
      (mb = 0 → fDiv f r a b = if ma = 0 then bad else ⟨.inf (sa != sb), fZD⟩)
      ∧ (ma * mb ≠ 0 → fMul f r a b = roundTo f r (sa != sb) (ma * mb) 1 (ea + eb) (ea + eb)
        ∧ fDiv f r a b = roundTo f r (sa != sb) ma mb (ea - eb) (ea - eb))
      ∧ (sa = true → ma ≠ 0 → fSqrt f r a = bad)
      ∧ (∃ (z : Int) (k : Int), k ≤ ea ∧ k ≤ eb ∧ (k = ea ∨ k = eb)
        ∧ z = (if sa then -1 else 1) * (ma * f.radix ^ (ea - k).toNat : Nat) + (if sb then -1 else 1) * (mb * f.radix ^ (eb - k).toNat : Nat)
        ∧ (z ≠ 0 → fAdd f r false a b = roundTo f r (decide (z < 0)) z.natAbs 1 k k)
        ∧ (z = 0 → ∃ e, fAdd f r false a b = ⟨.fin (if sa = sb then sa else decide (r = .neg)) 0 e, 0⟩)))

/-- R236: the one rounding of the model's floating arithmetic is correct in every format and direction: a finite result fits the format, has full precision or the least
exponent where it is inexact, lies within one unit (half of one in the two nearest directions, ties to even or away) on the side that the direction says, IX says whether it is
inexact, UF is raised only with IX, and a result too large is the overflow value with OF and IX. -/
def Obligations.RoundingIsCorrect : Prop :=
  ∀ (z : BitVec 2) (r : Rnd) (sign : Bool) (n d : Nat) (e pref : Int), 0 < n → 0 < d →
    let f := fmtOf z
    let x := roundTo f r sign n d e pref
    let raised := fun (k : BitVec 5) => decide (x.raised &&& k ≠ 0)
    (raised fOF = true → x.v = overflowVal f r sign ∧ raised fIX = true)
    ∧ (raised fUF = true → raised fIX = true) ∧ raised fIO = false ∧ raised fZD = false
    ∧ (raised fOF = false → ∃ (m : Nat) (q : Int), x.v = .fin sign m q ∧ m < f.radix ^ f.prec ∧ f.qmin ≤ q ∧ q ≤ f.qmax
      ∧ (raised fIX = true → f.radix ^ (f.prec - 1) ≤ m ∨ q = f.qmin)
      ∧ ∀ k, k ≤ e → k ≤ q →
        let exact := n * f.radix ^ (e - k).toNat
        let given := m * d * f.radix ^ (q - k).toNat
        let one := d * f.radix ^ (q - k).toNat
        (raised fIX = true ↔ exact ≠ given)
        ∧ ((r = .even ∨ r = .away) → 2 * exact ≤ 2 * given + one ∧ 2 * given ≤ 2 * exact + one)
        ∧ (r = .even → (2 * exact = 2 * given + one ∨ 2 * given = 2 * exact + one) → m % 2 = 0)
        ∧ (r = .away → 2 * exact ≠ 2 * given + one)
        ∧ ((r = .zero ∨ (r = .pos ∧ sign = true) ∨ (r = .neg ∧ sign = false)) → given ≤ exact ∧ exact < given + one)
        ∧ (((r = .pos ∧ sign = false) ∨ (r = .neg ∧ sign = true)) → exact ≤ given ∧ given < exact + one))

/-- FMOV, FNEG, FABS, FMVFX, FMVXF, FCVTI and FCVIF (R230, R233, R234, R240): the sign bit alone changes, and of a pair that of the odd register; 64 bits are copied with their
mark; an integer result is the rounded value, the end of the range that it passes with IO, or 0 for a NaN; an integer source is rounded once. -/
def Obligations.FloatingMovesAndIntegerConversions : Prop :=
  ∀ (s : State) (g : Nat) (fmt : BitVec 2) (fd fa : FReg) (r : GReg) (v hi w : Word) (u : Bool) (a : FVal),
    let t := s.thread g
    let sgn : Word := if fmt = 0 then 0x80000000#64 else 0x8000000000000000#64
    let x := if fmt = 0 then v &&& 0xFFFFFFFF#64 else v
    let one := fun (i : Instr) (y : Word) => exec i s = .next (s.retired g (t.setFreg fd ⟨y, false⟩))
    let pair := fun (i : Instr) (y : Word) => exec i s = .next (s.retired g ((t.setFreg fd ⟨v, false⟩).setFreg (fd + 1) ⟨y, false⟩))
    let done := fun (z : Thread) (fl : BitVec 5) => Host.Outcome.next (s.retired g { z with fpOut := t.fpOut ++ [⟨t.pc, fl⟩] })
    s.ready g [r] true = true →
    exec (.fmvfx g r fa) s = .next (s.retired g (t.setGreg r (t.freg fa)))
    ∧ exec (.fmvxf g r fa) s = .next (s.retired g (t.setFreg fa (t.greg r)))
    ∧ (fmt ≠ 3 → t.freg fa = ⟨v, false⟩ →
      one (.fmov g fmt fd fa) x ∧ one (.fneg g fmt fd fa) (x ^^^ sgn) ∧ one (.fabs g fmt fd fa) (x &&& ~~~sgn))
    ∧ (fmt = 3 → fd.toNat % 2 = 0 → fa.toNat % 2 = 0 → t.freg fa = ⟨v, false⟩ → t.freg (fa + 1) = ⟨hi, false⟩ →
      pair (.fmov g fmt fd fa) hi ∧ pair (.fneg g fmt fd fa) (hi ^^^ sgn) ∧ pair (.fabs g fmt fd fa) (hi &&& ~~~sgn))
    ∧ ((fmt = 3 → fa.toNat % 2 = 0) → t.fOperand fmt fa = some a →
      let lo : Int := if u then 0 else -(2 ^ 63)
      let top : Int := if u then 2 ^ 64 - 1 else 2 ^ 63 - 1
      let gives := fun (y : Int) (fl : BitVec 5) => exec (.fcvti g r fa fmt u) s = done (t.put r (BitVec.ofInt 64 y)) fl
      (a.isNan = true → gives 0 fIO) ∧ (∀ sg, a = .inf sg → gives (if sg then lo else top) fIO)
      ∧ (∀ sg m e, a = .fin sg m e → ∃ y : Int,
        let k := (fmtOf fmt).radix ^ (-e).toNat
        let z : Int := (if sg then -1 else 1) * (m * (fmtOf fmt).radix ^ e.toNat : Nat)
        (z - y * k).natAbs < k ∧ (t.rnd = .zero → y = z.tdiv k) ∧ ((t.rnd = .even ∨ t.rnd = .away) → 2 * (z - y * k).natAbs ≤ k)
        ∧ (t.rnd = .even → 2 * (z - y * k).natAbs = k → y % 2 = 0) ∧ (t.rnd = .pos → z ≤ y * k) ∧ (t.rnd = .neg → y * k ≤ z)
        ∧ (y < lo → gives lo fIO) ∧ (top < y → gives top fIO) ∧ (lo ≤ y → y ≤ top → gives y (if z = y * k then 0 else fIX))))
    ∧ (t.greg r = ⟨w, false⟩ → (fmt = 3 → fd.toNat % 2 = 0) →
      let i : Int := if u then (w.toNat : Int) else w.toInt
      let y := roundTo (fmtOf fmt) t.rnd (decide (i < 0)) i.natAbs 1 0 0
      (i ≠ 0 → exec (.fcvif g r fd fmt u) s = done (t.fWrite fmt fd (fEncode fmt y.v)) y.raised)
      ∧ (i = 0 → ∃ e : Int, exec (.fcvif g r fd fmt u) s = done (t.fWrite fmt fd (fEncode fmt (.fin false 0 e))) 0))

/-- FLDP, FSTP and FLOATING_OP_COMPLETE (R243-R245), where the checks pass and no store of the thread that waits overlaps: a packed field becomes a decimal value that is rounded once; a
value that rounds to an integer of its unit goes to the field with a preferred sign, or leaves it with IO; a completing operation sets its flags in
FPS, and a trapped one PEND, TRAPPED and the first address. -/
def Obligations.PackedFloatingAndCompletion : Prop :=
  ∀ (s : State) (g k : Nat) (f : FReg) (q : Bool) (ra : GReg) (l : BitVec 5) (e : BitVec 10) (base : Word) (v : Int) (a : FVal) (o : FpOp),
    let t := s.thread g
    let n := l.toNat + 1
    let z : BitVec 2 := if q then 3 else 2
    let at_ := base.toNat
    let bs := vals (s.dev.readBytes at_ n)
    let ends := fun (w : Thread) (fl : BitVec 5) (dirty : Bool) (u : State) =>
      s.leftAs g (({ w with fpOut := t.fpOut ++ [⟨t.pc, fl⟩] } : Thread).retire (t.pc + 4)) [⟨at_, n, dirty⟩] u
    (s.ready g [ra] false = true → (q = true → f.toNat % 2 = 0) → t.greg ra = ⟨base, false⟩ →
      (s.mayAccess g .load at_ n → t.noStoreIn at_ n = true → anyPoison (s.dev.readBytes at_ n) = false → IsPacked bs v →
        let neg := decide (nibble bs (2 * n - 1) = 0xB ∨ nibble bs (2 * n - 1) = 0xD)
        let y := roundTo (fmtOf z) t.rnd neg v.natAbs 1 e.toInt e.toInt
        (v ≠ 0 → Completes (.fldp g f q ra l e) s (ends (t.fWrite z f (fEncode z y.v)) y.raised false))
        ∧ (v = 0 → ∃ x : Int, Completes (.fldp g f q ra l e) s (ends (t.fWrite z f (fEncode z (.fin neg 0 x))) 0 false)))
      ∧ (s.mayAccess g .store at_ n → t.fOperand z f = some a → t.room at_ n = true →
        ((∀ sg m x, a ≠ .fin sg m x) → Completes (.fstp g f q ra l e) s (ends t fIO true))
        ∧ (∀ sg m x, a = .fin sg m x → e.toInt ≤ x →
          let y : Int := (if sg then -1 else 1) * (m * 10 ^ (x - e.toInt).toNat : Nat)
          (10 ^ (2 * n - 1) ≤ y.natAbs → Completes (.fstp g f q ra l e) s (ends t fIO true))
          ∧ (y.natAbs < 10 ^ (2 * n - 1) → Completes (.fstp g f q ra l e) s (fun u => ∃ data : List Byte, data.length = n ∧ IsPacked data y
            ∧ nibble data (2 * n - 1) = (if y < 0 then 0xD else 0xC) ∧ ends (t.buffered at_ (clean data)) 0 true u)))
        ∧ (∀ sg m x, a = .fin sg m x → x < e.toInt → ∃ y : Int,
          let unit : Nat := 10 ^ (e.toInt - x).toNat
          let w : Int := (if sg then -1 else 1) * (m : Int)
          (w - y * unit).natAbs < unit ∧ (t.rnd = .even → 2 * (w - y * unit).natAbs ≤ unit)
          ∧ (10 ^ (2 * n - 1) ≤ y.natAbs → Completes (.fstp g f q ra l e) s (ends t (fIO ||| (if w = y * unit then 0 else fIX)) true))
          ∧ (y.natAbs < 10 ^ (2 * n - 1) → Completes (.fstp g f q ra l e) s (fun u => ∃ data : List Byte, data.length = n ∧ IsPacked data y
            ∧ ends (t.buffered at_ (clean data)) (if w = y * unit then 0 else fIX) true u)))))
    ∧ (g < Config.threads → s.dev.replaying (clusterOf g) = false → s.dev.box.rst = none → s.dev.clusterLive (clusterOf g) = true → t.fpOut[k]? = some o →
      Completes (.floatingOpComplete g k) s (fun u =>
        let w := u.thread g
        let trap := o.raised.toNat &&& fld t.fps 8 5
        w.fpOut = t.fpOut.eraseIdx k ∧ fld w.fps 0 5 = fld t.fps 0 5 ||| o.raised.toNat
          ∧ bit w.fps 19 = (bit t.fps 19 || decide (trap ≠ 0)) ∧ fld w.fps 20 5 = fld t.fps 20 5 ||| trap
          ∧ fld w.fps 8 11 = fld t.fps 8 11
          ∧ (trap ≠ 0 → (bit t.fps 19 = false ∨ k < t.fpBefore) → w.fpepc = word (fld o.pc 0 48)) ∧ (trap = 0 → w.fpepc = t.fpepc)
          ∧ { w with fps := t.fps, fpOut := t.fpOut, fpepc := t.fpepc, fpBefore := t.fpBefore } = t ∧ u = s.withThread g w))

/-- INTERRUPT_PENDING, INTERRUPT_ENTRY and EXCEPTION_ENTRY (R264, R266-R268, R285, R289, R290, R418): an edge whose route is enabled pends at its thread with the higher priority, or waits while a checkpoint is in progress there (assumption 135); the eligible interrupt of highest
priority, then lowest vector, then the Up world, enters where its checks pass; the fetch and the decoding of the next word raise their exceptions in the order of R268, and a
legal HINT raises none. An eligible interrupt comes before the exception. -/
def Obligations.InterruptsAndFetchFaultsEnter : Prop :=
  ∀ (s : State) (source g : Nat) (i : PendingIrq) (e : Ctx),
    let t := s.thread g
    let a := t.pc.toNat
    let bytes := (s.dev.ctx g).codeBytes a 4
    let m := ofLe (vals bytes) / 2 ^ 26
    let first := fun (x : PendingIrq) => x.prio > t.ipl
    let check := s.dev.checkAccess ⟨clusterOf g, t.world, t.sup, t.key⟩ .fetch a 4
    let takes := fun (c : Ctx) (vec : Nat) (detail faddr : Nat) (why : Option Refused) =>
      exec (.exceptionEntry g) s = .next (s.withDev (((takeExc c ⟨vec, word detail, word faddr, why⟩).map Ctx.commit).getD s.dev))
    (source < 4096 →
      let w := SMap.get (fun _ => (0 : Word)) s.dev.box.routes source
      let h := fld w 0 12
      let u := s.thread h
      let new : PendingIrq := ⟨bit w 24, fld w 16 8, fld w 12 4⟩
      let same := fun (x : PendingIrq) => decide (x.world = new.world ∧ x.vector = new.vector)
      (bit w 31 = false → Completes (.interruptPending source) s (fun v => ∀ k, v.thread k = s.thread k))
      ∧ (bit w 31 = true → source ∈ s.dev.edges → h < Config.threads → s.dev.replaying (clusterOf h) = false → (s.dev.cluster (clusterOf h)).held = false →
        Completes (.interruptPending source) s (fun v =>
          source ∉ v.dev.edges ∧ (∀ k, k ≠ h → v.thread k = s.thread k) ∧ { v.thread h with irqs := u.irqs } = u
            ∧ (u.irqs.all (fun x => !same x) = true → (v.thread h).irqs = u.irqs ++ [new])
            ∧ (∀ x : PendingIrq, u.irqs = [x] → same x = true →
              (v.thread h).irqs = [{ x with prio := Nat.max x.prio new.prio }])))
      ∧ (bit w 31 = true → (s.dev.cluster (clusterOf h)).held = true → exec (.interruptPending source) s = .next s))
    ∧ (g < Config.threads → s.dev.replaying (clusterOf g) = false → s.dev.coreRuns g = true → t.run = .running → t.commitDue = false → t.releasing = false →
      t.fpOut = [] → t.posts = [] → bit t.fps 19 = false → t.ie = true → i ∈ t.irqs → first i →
      (∀ j ∈ t.irqs, first j → j ≠ i → j.prio < i.prio ∨ (j.prio = i.prio ∧
        (i.vector < j.vector ∨ (i.vector = j.vector ∧ i.world = false ∧ j.world = true)))) →
      tryEnter (s.dev.ctx g) i.vector (some i) 0 0 = .ok e →
      exec (.interruptEntry g) s = .next (s.withDev e.commit) ∧ e.t.irqs = t.irqs.filter (fun j => decide (j ≠ i)))
    ∧ (s.ready g [] false = true → t.fpOut = [] → t.posts = [] →
      (∀ x, check = some (x, .address) → takes (s.dev.ctx g) 5 0 x (some .address))
      ∧ (∀ x r, check = some (x, r) → r ≠ .address → takes (s.dev.ctx g) 3 0 x (some r))
      ∧ (check = none → anyPoison bytes = true → takes (s.dev.ctx g) 13 1 a none)
      ∧ (check = none → anyPoison bytes = false → m ∉ [0x01, 0x02, 0x03, 0x04, 0x05, 0x06, 0x07, 0x08, 0x10, 0x12, 0x20, 0x21, 0x22, 0x28, 0x29, 0x2A, 0x2B, 0x2C,
          0x30, 0x31, 0x32, 0x33, 0x34, 0x36, 0x38, 0x3A, 0x3B, 0x3C, 0x3E] → takes (s.dev.freshCtx g) 1 (256 * m + 1) 0 none)
      ∧ (check = none → anyPoison bytes = false → m = 0x3E → exec (.exceptionEntry g) s = .next s))

/-- POST, POST_EXECUTE, POST_RESULT and RELEASE (R57, R91, R332-R338): a POST carries its account, amount, record and marks to the hub and answers FOREIGN or TAG at once; POSTs reach
their engine in the hub's order, which judges them in the order of R334, and on OK writes the new balance, the sequence, the count and the epoch to the account line and nothing else of it; the result writes rd and FL; a
release frees the thread and its track. -/
def Obligations.PostsAreSentExecutedAndAnswered : Prop :=
  ∀ (s : State) (g tag : Nat) (rd ra rb rt : GReg) (base acct w : Word) (p : PostReq) (others : List PostReq) (r : PostRes) (q : PostWait)
    (waits : List PostWait) (k : Consist),
    let t := s.thread g
    let h := s.dev.hub
    let ea := base.toNat
    let tr := s.dev.trackOf acct
    let sent := fun (rec : Option Nat) => ∀ x : ConsistRec, (t.consist = none ∧ rec = none ∨ t.consist = some k ∧ k.recs[fld w 0 4]? = some x ∧ rec = some x.recId) →
      Completes (.post g rd ra rb rt 0 false) s (fun u =>
        u.thread g = ({ t with posts := t.posts ++ [⟨h.nextTag, t.phys rd, false⟩] } : Thread).retire (t.pc + 4)
        ∧ (∀ o, o ≠ g → u.thread o = s.thread o) ∧ u.dev.hub.nextTag = h.nextTag + 1
        ∧ ((s.dev.track tr).owned = false → u.dev.hub.results = h.results ++ [⟨h.nextTag, g, 8, 0, false⟩] ∧ u.dev.hub.posts = h.posts)
        ∧ ((s.dev.track tr).owned = true → u.dev.hub.results = h.results ∧ ∃ y, u.dev.hub.posts = h.posts ++ [y] ∧ y.tag = h.nextTag ∧ y.g = g
          ∧ y.track = tr ∧ y.acct = acct ∧ y.amt = vals (s.dev.readBytes ea 16) ∧ y.recId = rec ∧ y.world = t.world ∧ y.sup = t.sup
          ∧ y.key = t.key ∧ y.user = fld w 4 4 ∧ y.rel = false ∧ y.arrived = false
          ∧ y.engine = (if (s.dev.track tr).state = .moving then (s.dev.track tr).target else (s.dev.track tr).home)
          ∧ ((s.dev.track tr).state = .moving → y.held = true)))
    (s.ready g [rd, ra, rb, rt] false = true → t.sb = [] → t.posts.length < 4 → t.greg rb = ⟨base, false⟩ → ea % 16 = 0 → s.mayAccess g .load ea 16 → offKeys ea 16 →
      t.greg ra = ⟨acct, false⟩ → anyPoison (s.dev.readBytes ea 16) = false → t.greg rt = ⟨w, false⟩ →
      (∀ rec, sent rec)
      ∧ (t.consist = some k → k.recs[fld w 0 4]? = none → t.posts = [] → Completes (.post g rd ra rb rt 0 false) s (fun u =>
        u.thread g = ((t.put rd 9).withNzcv false false false false).retire (t.pc + 4) ∧ u.dev.hub = h)))
    ∧ (h.posts = p :: others → p.tag = tag → (∀ x ∈ others, tag < x.tag ∧ (x.arrived = true → x.engine ≠ p.engine)) →
      let c := p.engine
      (s.dev.track p.track).state ≠ .moving → s.dev.resetting c = false →
      (s.dev.dirFind p.acct = .none → Completes (.postExecute tag) s (fun u =>
        u.dev.hub.results = h.results ++ [⟨tag, p.g, 3, 0, false⟩] ∧ u.dev.mem = s.dev.mem ∧ u.dev.jnl = s.dev.jnl
          ∧ ∀ x, x ∈ u.dev.hub.posts ↔ x ∈ others))
      ∧ ∀ sl a, s.dev.dirFind p.acct = .slot sl → a = (s.dev.slotAt sl).2.1 % 2 ^ 48 / 64 * 64 → a + 64 ≤ Config.hbmEnd →
        let line := s.dev.readBytes a 64
        let judged := judgePost p (lineOf line)
        (s.dev.holdsWritable c (a / 64) = false → Completes (.postExecute tag) s (fun u =>
            u.dev.hub.results = h.results ∧ u.dev.mem = s.dev.mem ∧ u.dev.jnl = s.dev.jnl
            ∧ ∀ x, x ∈ u.dev.hub.posts ↔ x = { p with arrived := true } ∨ x ∈ others))
        ∧ (s.dev.holdsWritable c (a / 64) = true →
          (∀ code, judged = .error code → code ≠ 7 → Completes (.postExecute tag) s (fun u =>
            u.dev.hub.results = h.results ++ [⟨tag, p.g, code, 0, false⟩] ∧ u.dev.mem = s.dev.mem ∧ u.dev.jnl = s.dev.jnl))
          ∧ (∀ v n, judged = .ok (v, n) → s.dev.jnl.entryRoom = true → Completes (.postExecute tag) s (fun u =>
            let at_ := fun (o : Nat) (z : Nat) => ofLe ((List.range z).map (fun j => u.dev.byteAt (a + o + j)))
            ⟨tag, p.g, 0, s.dev.jnl.next, decide (n < 0)⟩ ∈ u.dev.hub.results ∧ u.dev.jnl.next = (s.dev.jnl.next + 1) % 2 ^ 62
            ∧ IsPacked ((List.range 16).map (fun j => u.dev.byteAt (a + j))) n ∧ at_ 40 8 = s.dev.jnl.next % 2 ^ 64
            ∧ at_ 48 8 = (ofLe (vals ((line.drop 48).take 8)) + 1) % 2 ^ 64 ∧ at_ 56 8 = s.dev.jnl.epoch % 2 ^ 64
            ∧ ∀ b, (b < a ∨ a + 64 ≤ b ∨ (a + 16 ≤ b ∧ b < a + 40)) → s.dev.keyAddr a ≠ some b → u.dev.byteAt b = s.dev.byteAt b))))
    ∧ (∀ (b lim x : Int) (l : Line), l.balance = .ok b → l.limit = .ok lim → l.poisoned = false → l.state / 256 % 256 = 0 →
      let wrong := p.world ≠ decide (l.state / 16 % 2 = 1) ∨ ¬ ((p.sup = true ∧ p.key = 0) ∨ (p.key ≠ 0 ∧ p.key = l.state % 16))
      let shut := l.state / 128 % 2 = 1 ∨ l.state / 32 % 4 = 3
      (wrong → judgePost p l = .error 2) ∧ (¬ wrong → shut → judgePost p l = .error 6)
      ∧ (¬ wrong → ¬ shut → p.amt.length = 16 → (¬ ∃ y, IsPacked p.amt y) → judgePost p l = .error 4)
      ∧ (¬ wrong → ¬ shut → IsPacked p.amt x → judgePost p l =
        if 10 ^ 31 ≤ (b + x).natAbs then .error 5
        else if (l.state / 32 % 4 = 1 ∧ x < 0 ∧ b + x < lim) ∨ (l.state / 32 % 4 = 2 ∧ 0 < x ∧ lim < b + x) then .error 1 else .ok (x, b + x)))
    ∧ (h.results.find? (fun x => x.tag == tag) = some r → (s.thread r.g).posts = q :: waits → q.tag = tag → s.dev.box.rst = none →
      (s.thread r.g).releasing = false → (q.rel = true → r.status ≠ 0) →
      Completes (.postResult tag) s (fun u =>
        let o := s.thread r.g
        let v := (o.physSet q.dest ⟨word ((if r.status = 0 then r.seq % 2 ^ 48 * 65536 else 0) + r.status), false⟩).withNzcv
          (decide (r.status = 0) && r.neg) (decide (r.status = 0)) (decide (r.status = 1)) (decide (r.status = 5))
        u.thread r.g = { v with posts := waits } ∧ (∀ x, x ≠ r.g → u.thread x = s.thread x)
          ∧ u.dev.hub = { h with results := h.results.filter (fun x => decide (x.tag ≠ tag)) }))
    ∧ (s.ready g [] false = true → t.sb = [] → t.posts = [] → t.fpOut = [] → bit t.fps 19 = false → (∀ x, t.consist = some x → s.dev.releaseRoom x = true) →
      Completes (.release g) s (fun u => (u.thread g).run = .free ∧ (u.thread g).consist = none
        ∧ (∀ o, o ≠ g → u.thread o = s.thread o) ∧ ∀ x, t.consist = some x → (u.dev.track x.track).occ = false))

/-- CONSIST_DISPATCH, MOVE_COMPLETE and HOLD_DRAIN (R83, R86-R90, R103, R105): the ready track whose oldest record came first goes to a free thread with its oldest records of one class, as many as
CONSIST_MAX allows; the thread starts at its class's entry with slot, count and track in P0-P2 of its window; a completed move homes its track in the destination; a held
record joins its track's queue while that has a slot. A cluster that stops for a checkpoint takes no consist and no move (assumption 135). -/
def Obligations.YardDispatchesMovesAndDrains : Prop :=
  ∀ (s : State) (c t g m : Nat) (r : Rec) (rest : List Rec),
    let x := s.dev.track t
    let y := s.thread g
    let n := (consistRecs r.cls s.dev.consistMax (r :: rest)).length
    let cls := SMap.get (fun _ => (0, 0)) s.dev.tt.classes r.cls
    let slot := Config.storeBase + 0x1000000 * clusterOf g + 0x3FB800 + 192 * localOf g
    let p0 := 8 + 8 * (2 * y.wsel % 24)
    (c < Config.clusters → (s.dev.cluster c).held = false → s.dev.chooseTrack c = some t → s.dev.chooseThread c = some g → x.waiting.filterMap s.dev.recOf = r :: rest →
      Completes (.consistDispatch c) s (fun u =>
        let v := u.thread g
        v.run = .running ∧ v.pc = word (Config.codeBase + 0x1000000 * clusterOf g + cls.2) ∧ v.ts = word cls.1 &&& 0xBF7F#64
        ∧ v.physGet p0 = ⟨word slot, false⟩ ∧ v.physGet (p0 + 1) = ⟨word n, false⟩ ∧ v.physGet (p0 + 2) = ⟨word t, false⟩
        ∧ (v.sup = false → v.greg 8 = ⟨word slot, false⟩ ∧ v.greg 9 = ⟨word n, false⟩ ∧ v.greg 10 = ⟨word t, false⟩) ∧ v.wd = 0 ∧ v.lp0.ln = 0 ∧ v.lp1.ln = 0 ∧ v.lp2.ln = 0
        ∧ v.dacc = y.dacc ∧ v.fregs = y.fregs ∧ v.up = y.up ∧ v.down = y.down ∧ (∀ h, h ≠ g → u.thread h = s.thread h)
        ∧ (∃ k, v.consist = some k ∧ k.track = t ∧ k.recs.map (fun (z : ConsistRec) => z.recId) = ((r :: rest).take n).map (fun (z : Rec) => z.id))
        ∧ n ≤ s.dev.consistMax ∧ (∀ z ∈ (r :: rest).take n, z.cls = r.cls) ∧ (∀ z, (r :: rest)[n]? = some z → n < s.dev.consistMax → z.cls ≠ r.cls)
        ∧ (u.dev.track t).occ = true ∧ (u.dev.track t).waiting = x.waiting.drop n
        ∧ ofLe ((List.range 2).map (fun i => u.dev.byteAt (slot + i))) = t % 65536 ∧ (u.dev.byteAt (slot + 2)).toNat = n % 256
        ∧ (∀ b, (b < slot ∨ slot + 192 ≤ b) → u.dev.byteAt b = s.dev.byteAt b)))
    ∧ (s.dev.chooseTrack c = some t → ∃ z, (t, z) ∈ s.dev.yard.tracks ∧ z.ready c = true
      ∧ ∀ q ∈ s.dev.yard.tracks, q.2.ready c = true → z.waiting.headD 0 ≤ q.2.waiting.headD 0)
    ∧ (s.dev.chooseThread c = some g → s.dev.freeThread g = true ∧ g / 96 = c)
    ∧ (c < Config.clusters → (s.dev.cluster c).held = true → exec (.consistDispatch c) s = .next s)
    ∧ (t < 65536 → (s.dev.cluster x.target).held = true → exec (.moveComplete t) s = .next s)
    ∧ (t < 65536 → (s.dev.cluster x.target).held = false → (s.dev.yard.moves.take 8).find? (fun p => p.1 == t) = some (t, m) → x.leaving = none → s.dev.box.rst = none →
      s.dev.yard.hold.length + x.waiting.length ≤ Config.holdSize →
      Completes (.moveComplete t) s (fun u =>
        (u.dev.track t).state = .settled ∧ (u.dev.track t).home = x.target ∧ (u.dev.track t).target = 0 ∧ (u.dev.track t).marks = 0
        ∧ (∀ p ∈ u.dev.yard.moves, p.1 ≠ t) ∧ (∀ h, u.thread h = s.thread h)
        ∧ u.dev.rf rYrdErr 32 32 = sat (2 ^ 32 - 1) (s.dev.rf rYrdErr 32 32 + 1)
        ∧ u.dev.yard.logTail = (s.dev.yard.logTail + 1) % 2 ^ 32))
    ∧ (t < 65536 → x.state ≠ .moving → x.owned = true → s.dev.heldOf t = [m] → s.dev.recOf m = some r →
      (s.dev.queue (recordQueue x.home t)).occ < (s.dev.queue (recordQueue x.home t)).size →
      Completes (.holdDrain t) s (fun u => m ∉ u.dev.yard.hold ∧ (u.dev.track t).waiting = x.waiting ++ [m]
        ∧ (∀ i, i ≠ m → (i ∈ u.dev.yard.hold ↔ i ∈ s.dev.yard.hold))))

/-- RECORDS_DATAGRAM, RECORD_BUFFER_ROOM, CREDIT_REQUEST, ARP_REQUEST, NEIGHBOUR_SOLICITATION, FRAME_DROP, ACK_COALESCE_EXPIRY and EGRESS_ACK_QUEUE_SPACE (R37, R42, R44-R46, R50-R52, R56, R57, R70,
R571): a record that passes every check of R46 stands in the record buffer and in a slot of its track's queue, its sequence is seen, and its credit is back; a credit
request, an address request and an expired datagram are answered at once; a dropped frame is counted for the device and its port. The place and the slot are free (assumption 8). -/
def Obligations.FramesAreTakenAnsweredOrCounted : Prop :=
  ∀ (s : State) (p i k a : Nat) (u : Udp) (f : RxFrame) (vlan : Option Nat) (smac sip dip tip flen lo n : Nat) (g : Dgram) (y : Peer) (w : WaitRec)
    (c fn sq : Nat) (z : Ack),
    let d := s.dev
    let h := d.hub
    let source := ofLe ((u.payload.drop 4).take 2)
    let rest := u.payload.drop 16
    let b := waybill rest
    let t := d.trackOf (word b.primary)
    let rq := recordQueue (d.track t).home t
    let x := d.queue rq
    (p < 8 → d.classify p (.udp u) = .records → ofLe ((u.payload.drop 6).take 2) = 1 → b.length ≤ rest.length → 32 ≤ b.length → b.length ≤ 4096 →
      b.ver = 1 → b.flags = 0 → b.source = source → source ≠ 0 → SMap.get (fun _ => (0, 0)) d.tt.classes b.cls ≠ (0, 0) → b.primary ≠ 0 →
      0 < d.credit source p → h.waiting = [] → d.ring.state = .member → (d.track t).owned = true → (d.track t).leaving = none →
      (d.win source).judge b.seq = .new → (d.track t).state ≠ .moving → d.yard.hold = [] → x.occ < x.mark → x.occ < x.size →
      (d.bufferPlace b.length).1 = some a → x.base + 64 * x.size ≤ Config.hbmEnd → k < x.size → k ∉ d.usedSlots rq →
      Completes (.recordsDatagram p u) s (fun v =>
        (∃ r ∈ v.dev.hub.recs, r.id = h.nextRec ∧ r.addr = a ∧ r.len = b.length ∧ r.source = source ∧ r.seq = b.seq ∧ r.cls = b.cls
          ∧ r.track = t ∧ ∃ j, r.place = .queue rq j ∧ j < x.size ∧ j ∉ d.usedSlots rq)
        ∧ v.dev.hub.nextRec = h.nextRec + 1 ∧ v.dev.hub.waiting = [] ∧ (v.dev.win source).bit b.seq = 1
        ∧ v.dev.creditUsed source p = d.creditUsed source p ∧ (v.dev.queue rq).tail = (x.tail + 1) % 2 ^ 32
        ∧ (v.dev.track t).waiting = (d.track t).waiting ++ [h.nextRec] ∧ v.dev.out = d.out ∧ v.dev.hub.ackWait = h.ackWait
        ∧ (∀ j, j < b.length → some (v.dev.byteAt (a + j)) = rest[j]?) ∧ (∀ j, v.thread j = s.thread j)))
    ∧ (h.waiting = [w] →
      ((d.canTake w).1 = true → exec .recordBufferRoom s = .next (s.withDev ((d.withHub (fun h => { h with waiting := [] })).takeRec w)))
      ∧ ((d.canTake w).1 = false → exec .recordBufferRoom s = .next s))
    ∧ (p < 8 → d.classify p (.udp u) = .credit → Completes (.creditRequest p u) s (fun v => s.keeps v ∧
        v.dev.out = d.out ++ [.udp p u.smac u.vlan u.v6 u.sip u.sport u.dip u.dport (wtHeader 4 source 0 (d.allotment source - d.creditUsed source p) [])]
        ∧ ∀ j, v.thread j = s.thread j))
    ∧ (p < 8 → d.hears p = true → flen ≤ (d.portCfg p).maxFrame → tip ≠ 0 →
      (tip = (d.portCfg p).ipv4 → exec (.arpRequest p smac sip tip vlan flen) s =
        .next (s.withDev { d with out := d.out ++ [.arpReply p (d.portCfg p).mac smac sip vlan] }))
      ∧ (tip = (d.portCfg p).ipv6 → (dip = tip ∨ dip = solicitedNode tip) → exec (.neighbourSolicitation p smac sip dip tip vlan flen) s =
        .next (s.withDev { d with out := d.out ++ [.advert p (d.portCfg p).mac smac sip vlan] })))
    ∧ (p < 8 → d.classify p f = .drop lo n → Completes (.frameDrop p f) s (fun v => s.keeps v ∧
        v.dev.rf rQmWtDrop lo n = sat (2 ^ n - 1) (d.rf rQmWtDrop lo n + 1) ∧ v.dev.rf (rEthDrop p) lo n = sat (2 ^ n - 1) (d.rf (rEthDrop p) lo n + 1)
        ∧ ∀ o, o ≠ rQmWtDrop → o ≠ rEthDrop p → v.dev.reg o = d.reg o))
    ∧ (d.hears p = true → (d.portCfg p).maxFrame < u.flen → d.classify p (.udp u) = .drop 28 12)
    ∧ (d.hears p = true → u.flen ≤ (d.portCfg p).maxFrame → (u.dport ≠ d.rf rQmWtCtl 0 16 ∨ u.dip ≠ (if u.v6 then (d.portCfg p).ipv6 else (d.portCfg p).ipv4)) →
      d.classify p (.udp u) = .drop 28 12)
    ∧ (i < h.dgrams.length → Completes (.ackCoalesceExpiry i) s (fun v => s.keeps v ∧ ∀ o ∈ h.dgrams.take (i + 1), o ∉ v.dev.hub.dgrams))
    ∧ (h.dgrams.head? = some g → i = 0 →
      let e := d.queue g.queue
      let body := (g.acks.map ackBytes).flatten
      e.kind = 2 → d.peer g.reply = some y →
      (∀ j, j < g.acks.length → anyPoison (d.readBytes (e.base + 16 * ((e.head + j) % e.size)) 16) = false) →
      Completes (.ackCoalesceExpiry i) s (fun v => s.keeps v ∧
        v.dev.out = d.out ++ [.udp g.reply.port y.mac y.vlan g.reply.v6 g.reply.ip g.reply.udp g.reply.ourIp g.reply.ourUdp
          (wtHeader 2 g.source g.acks.length (d.credit g.source g.reply.port) body ++ body)]
        ∧ g ∉ v.dev.hub.dgrams ∧ (v.dev.queue g.queue).head = (e.head + g.acks.length) % 2 ^ 32))
    ∧ (h.ackWait = [(.host c fn sq, z)] → (∀ j, (s.thread j).releasing = false) →
      let q := hostQueue c fn (16 + sq % 8)
      let e := d.queue q
      (e.serves 5 = false ∨ e.full = true → exec .egressAckQueueSpace s = .next s)
      ∧ (e.serves 5 = true → e.full = false → Completes .egressAckQueueSpace s (fun v => s.keeps v ∧
        v.dev.hub.ackWait = [] ∧ v.dev.queue q = { e with tail := (e.tail + 1) % 2 ^ 32 }
        ∧ ([.hostWrite (queueCtl q) (queueFunc q) (e.base + 16 * (e.tail % e.size)) (clean (ackBytes z)),
          .hostWrite (queueCtl q) (queueFunc q) e.wb (clean (leBytes 4 ((e.tail + 1) % 2 ^ 32)))] : List OutMsg) <+: v.dev.out.drop d.out.length)))
/-- QUEUE_DOORBELL, QUEUE_DESCRIPTOR_WRITE, SUBMIT_ENTRY_TAKE, QM_KDB_WRITE, KERNEL_QUEUE_RESET, JOURNAL_QUEUE_DELIVERY, FUNCTION_LEVEL_RESET, PERST_N, PCIE_LINK_UP and PCIE_LINK_DOWN (R67-R73, R75,
R354, R458, R459): an index moves forward within its queue or sets QERR; a disabled descriptor takes every byte but QERR; a submit entry is taken with its record; a unit is
written at TAIL and then TAIL to WBADDR; a reset function's queues are empty and disabled; a mailbox command that loses its function or its link ends with an error. -/
def Obligations.HostAndKernelQueuesMove : Prop :=
  ∀ (s : State) (a : Agent) (ctl func loc off n : Nat) (v : BitVec 32) (kv : BitVec 64) (kq : BitVec 13) (bs entry record : List Byte) (u : JUnit) (j : MbxJob),
    let d := s.dev
    let q := hostQueue ctl func loc
    let x := d.queue q
    let reset := fun (y : QDesc) => { y with enable := false, head := 0, tail := 0, qerr := false }
    let ended := fun (w : State) (cause : Nat) => w.dev.mbx ctl = none ∧ w.dev.rb (rPciMbxCmd ctl) 0 = false ∧ w.dev.rb (rPciMbxCmd ctl) 2 = true
      ∧ w.dev.rf (rPciMbxCmd ctl) 3 3 = cause
    let linkOf := fun (w : State) => if ctl = 0 then w.dev.box.linkA else w.dev.box.linkB
    (ctl < 2 → func < 33 → loc < 32 → x.enable = true → x.qerr = false → d.hub.markers = [] →
      (x.kind = 4 → (v.toNat + 2 ^ 32 - x.tail) % 2 ^ 32 + x.occ ≤ x.size → d.hub.ackWait = [] → d.jnl.units = [] → d.jnl.notices = [] →
        exec (.queueDoorbell ctl func loc v) s = .next (s.withDev (d.setQueue q { x with tail := v.toNat })))
      ∧ (x.kind ≠ 4 → (v.toNat + 2 ^ 32 - x.head) % 2 ^ 32 ≤ x.occ → d.hub.ackWait = [] → d.jnl.units = [] → d.jnl.notices = [] →
        exec (.queueDoorbell ctl func loc v) s = .next (s.withDev (d.setQueue q { x with head := v.toNat })))
      ∧ ((if x.kind = 4 then x.size < (v.toNat + 2 ^ 32 - x.tail) % 2 ^ 32 + x.occ else x.occ < (v.toNat + 2 ^ 32 - x.head) % 2 ^ 32) →
        exec (.queueDoorbell ctl func loc v) s = .next (s.withDev (d.setQueue q { x with qerr := true }))))
    ∧ (ctl < 2 → func < 33 → loc < 32 → off < 32 → x.enable = false → d.hub.ackWait = [] →
      exec (.queueDescriptorWrite ctl func loc off bs) s =
        .next (s.withDev (d.setQueue q { descOfBytes (overlay x.bytes off bs) with qerr := false })))
    ∧ (ctl < 2 → func < 33 → loc < 16 →
      let len := ofLe ((entry.drop 8).take 2)
      let rb := padTo len record
      let b := waybill (padTo 32 rb)
      let w : WaitRec := ⟨if len < 32 then padTo 32 rb else rb, none, decide (0 < d.allotment b.source), false, decide (len ≠ b.length), .host ctl func loc, d.now⟩
      x.serves 4 = true → x.occ ≠ 0 → (d.queue (hostQueue ctl func (16 + loc % 8))).full = false → d.hub.waiting = [] → (d.canTake w).1 = true →
      exec (.submitEntryTake ctl func loc entry record) s =
        .next (s.withDev (((d.setQueue q { x with head := (x.head + 1) % 2 ^ 32 }).writeBack32 q x).takeRec w)))
    ∧ (s.mayWriteSlot a 3 = true →
      let m := fld kv 0 13
      let y := d.queue m
      let k := d.queue kq.toNat
      (6272 ≤ m → m < 8192 → y.kind = 6 → y.enable = true → y.qerr = false →
        (bit kv 13 = false → (fld kv 32 32 + 2 ^ 32 - y.tail) % 2 ^ 32 + y.occ ≤ y.size → Completes (.qmKdbWrite a kv) s (fun w => s.keeps w ∧
          w.dev.queue m = { y with tail := fld kv 32 32 }
          ∧ (y.occ < y.mark → y.mark ≤ ({ y with tail := fld kv 32 32 } : QDesc).occ → y.vector ∈ w.dev.edges)))
        ∧ (bit kv 13 = true → (fld kv 32 32 + 2 ^ 32 - y.head) % 2 ^ 32 ≤ y.occ → Completes (.qmKdbWrite a kv) s (fun w => s.keeps w ∧
          w.dev.queue m = { y with head := fld kv 32 32 })))
      ∧ (6272 ≤ kq.toNat → k.kind = 6 → Completes (.kernelQueueReset a kq) s (fun w => s.keeps w ∧
        w.dev.queue kq.toNat = { k with head := 0, tail := 0, qerr := false } ∧ w.dev.rb rQmKqsel 62 = false)))
    ∧ (isJournalQueue n = true →
      let y := d.queue n
      (d.nextFor n = none → exec (.journalQueueDelivery n) s = .next s)
      ∧ (d.nextFor n = some (u, false) → exec (.journalQueueDelivery n) s = .next s)
      ∧ (d.nextFor n = some (u, true) → y.serves 3 = true → y.full = false → d.jnl.notices = [] → d.hub.markers = [] → Completes (.journalQueueDelivery n) s (fun w => s.keeps w ∧
        ([.hostWrite (queueCtl n) (queueFunc n) (y.base + u.bytes.length * (y.tail % y.size)) (clean u.bytes),
          .hostWrite (queueCtl n) (queueFunc n) y.wb (clean (leBytes 4 ((y.tail + 1) % 2 ^ 32)))] : List OutMsg) <+: w.dev.out.drop d.out.length
        ∧ (selSrc (d.sel n) = 0 → ∀ z ∈ w.dev.jnl.units, z.id = u.id → n ∈ z.taken))))
    ∧ (ctl < 2 →
      (1 ≤ n → n ≤ 32 → Completes (.functionLevelReset ctl (.vf n)) s (fun w => s.keeps w ∧
        (∀ i, i < 32 → w.dev.queue (hostQueue ctl n i) = reset (d.queue (hostQueue ctl n i)))
        ∧ ∀ k, (∀ i, i < 32 → k ≠ hostQueue ctl n i) → w.dev.queue k = d.queue k))
      ∧ (d.mbx ctl = some j → Completes (.functionLevelReset ctl .pf0) s (fun w => s.keeps w ∧ ended w 2))
      ∧ Completes (.perstN ctl) s (fun w => s.keeps w ∧ linkOf w = false ∧ (d.mbx ctl = some j → ended w 2)
        ∧ ∀ f i, f < 33 → i < 32 → w.dev.queue (hostQueue ctl f i) = reset (d.queue (hostQueue ctl f i)))
      ∧ (d.box.power = .on → Completes (.pcieLinkUp ctl) s (fun w => linkOf w = true))
      ∧ Completes (.pcieLinkDown ctl) s (fun w => s.keeps w ∧ linkOf w = false ∧ (d.mbx ctl = some j → ended w 3)))

/-- The ten kinds of frame, the link's events and the ports' light (R352, R368-R375, R379, R380, R383, R393, R395): an accepted frame advances its link; a held unit joins its origin's
open epoch and goes on East once; an EPOCHACK commits a sealed epoch when it completes the holders; a heartbeat is recorded and makes its member live, or lost;
a record, an outcome, a membership change and a cut-over reach their member and go on; a bad frame is counted and answered with NAK. -/
def Obligations.RingFramesTakeEffect : Prop :=
  ∀ (s : State) (east : Bool) (f : LFrame) (u : List Byte) (x : Replica) (sl : JUnit) (tr : Nat × TOut) (m n : Nat),
    let d := s.dev
    let e := d.linked east f
    let me := d.tt.ringId
    let p := d.port east
    let seq := ufld u 0 8 % 2 ^ 62
    let goesOn := fun (t : State) (dir : Bool) (hops : Nat) => ∃ h, t.dev.out = d.out ++ [.frame dir h] ∧ h.body = f.body ∧ h.origin = f.origin ∧ h.typ = f.typ ∧ h.hops = hops
    (s.accepts east 9 f → exec (.linkackFrame east f) s = .next (s.withDev e))
    ∧ (d.ring.state = .member → f.body = [u] →
      (f.origin ≠ me → d.replica f.origin = x → x.mode = some true → x.broken = false → s.canSend true →
        (s.accepts false 1 f → ufld u 0 8 / 2 ^ 62 = 0 → (x.next = none ∨ ∃ k, x.next = some k ∧ k ≤ seq) → Completes (.journalFrame false f) s (fun t => s.keeps t ∧
          t.dev.replica f.origin = { x with next := some (seq + 1), units := x.units ++ [(false, u)] }
          ∧ (f.hops = 0 → goesOn t true 1) ∧ (f.hops ≠ 0 → t.dev.out = d.out)))
        ∧ (s.accepts false 2 f → Completes (.stateFrame false f) s (fun t => s.keeps t ∧
          t.dev.replica f.origin = { x with units := x.units ++ [(true, u)] } ∧ (f.hops = 0 → goesOn t true 1) ∧ (f.hops ≠ 0 → t.dev.out = d.out))))
      ∧ (s.accepts east 3 f → ufld u 0 1 = me →
        (d.jnl.units = [] → d.jnl.notices = [] → d.hub.markers = [] → exec (.epochackFrame east f) s =
          .next (s.withDev (e.withJnl (fun j => { j with acks := j.acks ++ [⟨ufld u 2 1, ufld u 1 1, ufld u 8 8⟩] }))))
        ∧ (d.jnl.units.filter (fun v => decide (v.kind = 1 ∧ d.jnl.committed < v.epoch)) = [sl] → d.holders me = [m] →
          ufld u 1 1 = m → ufld u 2 1 = 1 → ufld u 8 8 = sl.epoch → Completes (.epochackFrame east f) s (fun t =>
            t.dev.jnl.committed = sl.epoch ∧ t.dev.jnl.lastSeal = sl.bytes)))
      ∧ (f.origin ≠ me → f.origin < 16 →
        (s.accepts true 4 f → Completes (.heartbeatFrame true f) s (fun t =>
          SMap.get (fun _ => Beat.mk [] 0) t.dev.ring.beats f.origin = ⟨u, f.sender⟩
          ∧ (ufld u 0 1 = 3 → d.ring.adopting = [] → me < 16 → t.dev.ring.isLive f.origin = true)
          ∧ (ufld u 6 1 ≠ clamp 2 64 (d.rf rJnlCtl 0 7) → t.dev.rb rLlErr 5 = true)))
        ∧ (s.accepts false 4 f → ufld u 0 1 = 5 → (d.liveWest me).head? = some f.origin → d.ring.adopting = [] →
          Completes (.heartbeatFrame false f) s (fun t => t.dev.ring.state = .member → t.dev.ring.adopting = [(f.origin, 5)])))
      ∧ (s.accepts east 6 f → ufld u 5 1 = me → d.ring.transfers.find? (fun y => y.1 == ufld u 0 4) = some tr →
        let a := ackOfBytes ((u.drop 16).take 16)
        (a.kind ≠ 1 → exec (.outcomeFrame east f) s =
          .next (s.withDev ((e.withRing (fun r => { r with transfers := r.transfers.filter (fun y => y.1 ≠ tr.1) })).ack tr.2.door a)))
        ∧ (a.kind = 1 → exec (.outcomeFrame east f) s = .next (s.withDev (e.ack tr.2.door a))))
      ∧ (s.accepts east 7 f → ufld u 3 1 ≠ me → s.canSend (!east) → Completes (.membershipFrame east f) s (fun t => s.keeps t ∧
        t.dev.ring.pendingMemb = d.ring.pendingMemb ++ [u] ∧ goesOn t (!east) f.hops))
      ∧ (s.accepts east 8 f → ufld u 1 1 ≠ me → s.canSend (!east) → Completes (.cutoverFrame east f) s (fun t => s.keeps t ∧
        t.dev.ring.cut = some ⟨ufld u 0 1, ufld u 8 8⟩ ∧ 51 ∈ t.dev.edges ∧ goesOn t (!east) f.hops)))
    ∧ (s.accepts east 5 f → d.ring.state = .member →
      let hdr := f.body.headD []
      let bs := ((f.body.drop 1).flatten).take (ufld hdr 16 2)
      let owned := (d.track (d.trackOf (word (waybill bs).primary))).owned
      (ufld hdr 4 1 = me → Completes (.transferFrame east f) s (fun t => t.dev.rb rLlErr 4 = true))
      ∧ (ufld hdr 4 1 ≠ me → owned = true → exec (.transferFrame east f) s =
        .next (s.withDev (e.receive ⟨bs, none, true, false, false, .ring hdr, ufld hdr 8 8⟩)))
      ∧ (ufld hdr 4 1 ≠ me → owned = false → s.canSend (!east) → Completes (.transferFrame east f) s (fun t => goesOn t (!east) f.hops)))
    ∧ (d.frameOk east f = false → p.carries = true → Completes (.badFrame east f) s (fun t => s.keeps t ∧
      t.dev.port east = { p with nak := true } ∧ t.dev.rf rLlErr 48 16 = sat 65535 (d.rf rLlErr 48 16 + 1)))
    ∧ (p.carries = true → Completes (.linkResendTimeout east) s (fun t => s.keeps t ∧
      let again := fun (nak : Bool) (g : LFrame) => OutMsg.frame east { g with ackseq := p.expect, nak := nak, crc := frameCheck { g with ackseq := p.expect, nak := nak } }
      t.dev.out = d.out ++ (match p.store with | [] => [] | g :: more => again p.nak g :: more.map (again false))
      ∧ t.dev.port east = (if p.store = [] then p else { p with nak := false })))
    ∧ (s.canSend east → p.txq = [] → Completes (.linkIdle east) s (fun t => s.keeps t ∧
      ∃ g, t.dev.out = d.out ++ [.frame east g] ∧ g.typ = 9 ∧ g.body = [] ∧ g.fseq = p.fseq ∧ g.ackseq = p.expect ∧ g.nak = p.nak
        ∧ t.dev.port east = { p with store := p.store ++ [g], fseq := (p.fseq + 1) % 2 ^ 32, nak := false }))
    ∧ (d.ring.inserted = true → 2 ≤ n → n ≤ 4 → p.up = false → p.heldDown = false → p.store = [] → d.ring.east.txq = [] → d.ring.west.txq = [] →
      d.ring.stream = [] → d.ring.seeding = [] →
      Completes (.portTrained east n) s (fun t => s.keeps t ∧ t.dev.port east =
        { p with up := true, fibres := n, first := false, fseq := 0, expect := 0, nak := false }))
    ∧ (n ≤ 4 → Completes (.portLossOfSignal east n) s (fun t => s.keeps t ∧ (t.dev.port east).up = false ∧ (t.dev.port east).fibres = n
      ∧ (t.dev.port east).heldDown = (p.heldDown && decide (n ≠ 0))
      ∧ (p.up = true → t.dev.rb rLlErr (if east then 0 else 1) = true)))

/-- SILENCE_LOSS, LINKDOWN_EXPIRY, JOIN_TIMEOUT, LL_WATCHDOG and THROUGH_LINE_SWITCHED (R380, R382, R384, R388, R394, R396): a silent or unreachable West neighbour is declared lost and
its tracks are due for adoption; a member whose EAST port stays down is fenced and owns no track that is not moving; a join that cannot be made, and a
device that can send no heartbeat, end in OUT; the switches follow the ring state. -/
def Obligations.LossesFenceAndRefuse : Prop :=
  ∀ (s : State) (x : Nat) (insert : Bool),
    let d := s.dev
    let west := (d.liveWest d.tt.ringId).head?
    (d.ring.state = .member → west = some x → d.ring.adopting = [] →
      (d.ring.west.carries = true → 3 ≤ d.ring.silence → Completes .silenceLoss s (fun t => s.keeps t ∧ t.dev.ring.adopting = [(x, 5)]))
      ∧ (d.ring.silence < 3 → exec .silenceLoss s = .next s)
      ∧ (d.ring.west.carries = false → Completes (.linkdownExpiry false) s (fun t => t.dev.ring.adopting = [(x, 5)])))
    ∧ (d.ring.state = .member → d.ring.east.carries = false → Completes (.linkdownExpiry true) s (fun t =>
      t.dev.ring.state = .fenced ∧ t.dev.rb rLlErr 3 = true ∧ 52 ∈ t.dev.edges
        ∧ ∀ k, (d.track k).state ≠ .moving → (t.dev.track k).owned = false))
    ∧ ((d.ring.state = .joining ∨ d.ring.state = .resync) → (d.ring.east.carries = false ∨ d.ring.west.carries = false) →
      Completes .joinTimeout s (fun t => t.dev.ring.state = .out ∧ t.dev.ring.live = 0 ∧ t.dev.rb rLlErr 2 = true ∧ t.dev.rf rLlErr 10 4 = 7))
    ∧ (d.ring.state ≠ .out → 4 ≤ d.ring.mute → Completes .llWatchdog s (fun t =>
      t.dev.ring.state = .out ∧ t.dev.ring.live = 0 ∧ t.dev.rb rLlErr 3 = true ∧ t.dev.rb rLlBypass 1 = false))
    ∧ (d.ring.mute < 4 → exec .llWatchdog s = .next s)
    ∧ (insert = decide (d.ring.state ≠ .out) → d.ring.inserted ≠ insert → Completes (.throughLineSwitched insert) s (fun t => s.keeps t ∧
      t.dev.ring.inserted = insert ∧ t.dev.ring.state = d.ring.state
        ∧ (insert = false → t.dev.ring.east = Port.reset ∧ t.dev.ring.west = Port.reset)))
    ∧ (insert ≠ decide (d.ring.state ≠ .out) → exec (.throughLineSwitched insert) s = .next s)

/-- EPOCH_BOUNDARY, SIGN_PERIOD_MARK, CHAIN_SIGNATURE, LINE_UPDATE and HEAL (R344-R349, R353, R378, R401, R414, R415, R427, R438, R449): a boundary seals the closing epoch into the chain, opens the next, applies every
pending epoch-applied write and freezes the counters that SNP_CTL asks for; boundaries and period marks fall at multiples of their periods; a marked seal is signed in 61 units; a LINE unit and its image go East; a healed line has no upset left. -/
def Obligations.BoundarySealsSignsAndHeals : Prop :=
  ∀ (s : State) (a : Agent) (v fv : Word) (sl : List Byte) (q : Nat),
    let d := s.dev
    let j := d.jnl
    let head := d.sealHead j.next j.epoch j.first j.count 0
    let addr := fld v 6 42 * 64
    let op := fld v 48 2
    let acct := (d.reg rLlLupdacct).toNat
    let img := d.readBytes addr 64
    let us := if op = 3 then [lineUnit 3 d.tt.ringId acct] else [lineUnit op d.tt.ringId acct, vals img]
    let group := signatureUnits sl (padTo 3309 (Config.mlDsaSign d.free sl []))
    let l := fld v 6 42
    let found := hbmDecode d l (d.hbmUps l) (d.lineMarked l)
    (d.boundaryDue = true → Completes .epochBoundary s (fun t => t.dev.box.rwe = [] ∧ t.dev.jnl.tickAt = some d.now
      ∧ (d.ring.state ≠ .joining → d.ring.state ≠ .resync → j.epoch ≠ 0 → t.dev.jnl.epoch = (j.epoch + 1) % 2 ^ 64 ∧ (d.hub.markers = [] → t.dev.jnl.count = 0))
      ∧ (d.ring.state = .member → d.hub.markers = [] → j.epoch ≠ 0 → j.count ≠ 0 → j.unitRoom = true → t.dev.jnl.digest = shake256 (j.digest ++ d.openEntries ++ head) ∧ t.dev.jnl.next = (j.next + 1) % 2 ^ 62)
      ∧ (d.box.rwe = [(rYrdForbid, some fv)] → t.dev.rf rYrdForbid 0 32 = fld fv 0 32)
      ∧ (d.rb rSnpCtl 0 = true → t.dev.rb rSnpCtl 0 = false ∧ t.dev.rb rSnpCtl 1 = true ∧ t.dev.reg rSnpStamp = word t.dev.jnl.epoch
        ∧ SMap.get (fun _ => (0 : Word)) t.dev.box.copies rYrdErr = d.reg rYrdErr)))
    ∧ (d.boundaryDue = true ↔ d.inService = true ∧ d.now % (1000 * clamp 2 64 (d.rf rJnlCtl 0 7)) = 0 ∧ j.tickAt ≠ some d.now)
    ∧ (d.boundaryDue = false → exec .epochBoundary s = .next s)
    ∧ (d.signMarkDue = true →
      (j.signing = none → d.box.rngStopped = false →
        exec .signPeriodMark s = .next (s.withDev (d.withJnl (fun j => { j with markAt := some d.now, markDue := true }))))
      ∧ ((j.signing.isSome = true ∨ d.box.rngStopped = true) → Completes .signPeriodMark s (fun t => s.keeps t ∧
        t.dev.rb rJnlErr 2 = true ∧ t.dev.rf rJnlErr 16 16 = sat 65535 (d.rf rJnlErr 16 16 + 1) ∧ t.dev.jnl = { j with markAt := some d.now })))
    ∧ (d.signMarkDue = true ↔ d.inService = true ∧ d.rb rJnlCtl 24 = true
      ∧ d.now % (1000000 * clamp 100 60000 (d.rf rJnlCtl 8 16)) = 0 ∧ j.markAt ≠ some d.now)
    ∧ (d.signMarkDue = false → exec .signPeriodMark s = .next s)
    ∧ (j.signing = some sl → Completes .chainSignature s (fun t => t.dev.jnl.signing = none ∧ ∀ g, t.thread g = s.thread g))
    ∧ (j.signing = none → exec .chainSignature s = .next s)
    ∧ (j.signing = some sl → d.box.rngStopped = false → j.reserveUsed + 128 ≤ 1024 → j.notices = [] → d.hub.markers = [] → (∀ w ∈ j.units, w.id < j.nextId) →
      Completes .chainSignature s (fun t => s.keeps t ∧
      t.dev.jnl.signing = none ∧ t.dev.jnl.nextId = j.nextId + 61
      ∧ (q ∈ d.jqueues → selBit (d.sel q) 0 = true → selSrc (d.sel q) = 0 → selBit (d.sel q) 2 = false → selBit (d.sel q) 3 = true →
        ∀ k b, group[k]? = some b → ∃ w ∈ t.dev.jnl.units, w.kind = 3 ∧ w.id = j.nextId + k ∧ w.bytes = b)))
    ∧ (j.signing = some sl → d.box.rngStopped = true → Completes .chainSignature s (fun t => s.keeps t ∧ t.dev.jnl.signing = none ∧ t.dev.rb rJnlErr 2 = true))
    ∧ (s.mayWriteSlot a 6 = true → d.rb rLlLupd 0 = false →
      ((Config.hbmEnd < addr + 64 ∨ op = 0 ∨ anyPoison img = true) → Completes (.lineUpdate a v) s (fun t => s.keeps t ∧
        t.dev.rb rLlLupd 0 = false ∧ t.dev.rb rLlLupd 51 = true ∧ t.dev.out = d.out))
      ∧ (addr + 64 ≤ Config.hbmEnd → op ≠ 0 → anyPoison img = false → Completes (.lineUpdate a v) s (fun t => s.keeps t ∧
        t.dev.rb rLlLupd 0 = false ∧ t.dev.ring.lupd = some j.epoch))
      ∧ (addr + 64 ≤ Config.hbmEnd → op ≠ 0 → anyPoison img = false → d.ring.handing = none → d.ring.stream = [] → d.ring.east.txq = [] →
        s.canSend true → d.holders d.tt.ringId ≠ [] → d.ring.state = .member → Completes (.lineUpdate a v) s (fun t => s.keeps t ∧
          t.dev.rb rLlLupd 0 = false ∧ t.dev.ring.lupd = some j.epoch
          ∧ ∃ h, t.dev.out = d.out ++ [.frame true h] ∧ h.typ = 2 ∧ h.origin = d.tt.ringId ∧ h.hops = 0 ∧ h.body = us)))
    ∧ (s.mayWriteSlot a 7 = true → d.rb rMicHeal 0 = false →
      Completes (.heal a v) s (fun t => t.dev.rb rMicHeal 0 = false ∧ (t.dev.rb rMicHeal 1 = true ∨ t.dev.rb rMicHeal 2 = true) ∧ t.dev.mem.bytes = d.mem.bytes)
      ∧ (d.region addr = .none → Completes (.heal a v) s (fun t => t.dev.rb rMicHeal 0 = false ∧ t.dev.rb rMicHeal 2 = true ∧ t.dev.mem = d.mem))
      ∧ (addr < Config.hbmEnd → d.cachedAny l = false → Completes (.heal a v) s (fun t =>
        t.dev.rb rMicHeal 0 = false ∧ t.dev.rb rMicHeal 1 = true ∧ t.dev.hbmUps l = [] ∧ t.dev.mem.bytes = d.mem.bytes
        ∧ t.dev.rf rMicHeal 4 2 = (match found with | .clean => 0 | .corrected _ => 1 | .poisoned _ => 2 | .uncorrectable => 3)
        ∧ (found = .uncorrectable → ∀ i, i < 8 → t.dev.markOf (8 * l + i) = true))))

/-- REGISTER_WRITE and BIT_ALIAS_WRITE (R430-R438, R441, R444, R445, R452): every bit of every register that a write reaches follows the access class of its field, an epoch-applied field is buffered, and
no other register changes; a write to a slot that the agent may not write is counted and changes nothing. The registers that act when they are written have statements of their own. -/
def Obligations.RegisterBitsFollowTheirClass : Prop :=
  ∀ (s : State) (a : Agent) (o i : Nat) (high : Bool) (v : BitVec 64) (w : BitVec 32),
    let d := s.dev
    plainReg o = true → agentExists a = true → d.reaches a = true →
    (d.mayWrite a (o / 4096) = true →
      Completes (.registerWrite a o true v) s (fun t => s.wrote o (fun _ => true) (bit v) t ∧ ∀ g, t.thread g = s.thread g)
      ∧ Completes (.registerWrite a (if high then o + 4 else o) false v) s (fun t =>
        s.wrote o (fun k => decide (32 ≤ k) == high) (fun k => bit v (if high then k - 32 else k)) t ∧ ∀ g, t.thread g = s.thread g)
      ∧ (o < 2 ^ 16 → i < 64 → Completes (.bitAliasWrite a (32 * o + 4 * i) w) s (fun t =>
        s.wrote o (fun k => decide (k = i)) (fun _ => w.getLsbD 0) t ∧ ∀ g, t.thread g = s.thread g)))
    ∧ (d.mayWrite a (o / 4096) = false →
      let refused := fun (t : State) => t.dev.rb rCfgLockviol 0 = true ∧ t.dev.rf rCfgLockviol 48 16 = sat 65535 (d.rf rCfgLockviol 48 16 + 1)
        ∧ (d.rb rCfgLockviol 0 = false → t.dev.rf rCfgLockviol 29 3 = agentCode a ∧ t.dev.rf rCfgLockviol 6 23 = o / 8)
        ∧ t.dev.box = d.box ∧ s.keeps t ∧ ∀ r, r ≠ rCfgLockviol → t.dev.reg r = d.reg r
      Completes (.registerWrite a o true v) s refused
      ∧ (o < 2 ^ 16 → i < 64 → Completes (.bitAliasWrite a (32 * o + 4 * i) w) s refused))

/-- CFG_LOCK_WRITE, SNP_GO, YRD_FORBID_WRITE, YRD_SNAP_GO, PIN_COMMAND, UNPIN_COMMAND, JNL_QDATA_WRITE, CFG_IRT_DATA_WRITE, CFG_SWI, RWS_APPLY, INTERLOCK_VALUE_WRITE, INTERLOCK_TIMEOUT, LEAVE and FORCE
(R109, R111, R117, R120, R292, R354, R361, R390, R400, R439-R443, R449, R451, R453): locks are only ever set; a YRD_FORBID value that would leave no eligible cluster is refused; pins queue up to 64; an
ill-formed selection or route is refused; an interlocked register takes a value once its complement follows from the same agent. -/
def Obligations.ControlCommandsTakeEffect : Prop :=
  ∀ (s : State) (a : Agent) (v : BitVec 64) (w : BitVec 32) (c : BitVec 5) (tr : BitVec 16) (rst : Bool) (h : Held),
    let d := s.dev
    let y := d.yard
    let jq := d.rf rJnlQsel 0 13
    let src := d.rf rCfgIrtSel 0 12
    let badSel := isJournalQueue jq = false ∨ w.toNat / 16 % 4 = 3 ∨ 8 < w.toNat / 256 % 16
    let badRoute := (w.getLsbD 31 = true ∧ w.toNat / 2 ^ 16 % 256 < 32) ∨ Config.threads ≤ w.toNat % 4096
    let r := rwiReg rst
    let failed := fun (t : State) (q cause : Nat) => (∀ k ∈ t.dev.box.ilk, k.off ≠ q) ∧ t.dev.rf rCfgIlk 48 16 = sat 65535 (d.rf rCfgIlk 48 16 + 1)
      ∧ t.dev.rb rCfgIlk 0 = true ∧ (d.rb rCfgIlk 0 = false → t.dev.rf rCfgIlk 1 3 = cause ∧ t.dev.rf rCfgIlk 6 23 = q / 8)
    (s.mayWriteSlot a 0 = true →
      Completes (.cfgLockWrite a v) s (fun t => s.keeps t ∧ t.dev.reg rCfgLock = d.reg rCfgLock ||| v ∧ ∀ q, q ≠ rCfgLock → t.dev.reg q = d.reg q)
      ∧ (badRoute → Completes (.cfgIrtDataWrite a w) s (fun t => t.dev.rb rCfgIrtSel 63 = true ∧ t.dev.box.routes = d.box.routes))
      ∧ (¬ badRoute → Completes (.cfgIrtDataWrite a w) s (fun t => t.dev.route src = w.setWidth 64 &&& 0xC1FFFFFF#64 ∧ ∀ q, q ≠ src → t.dev.route q = d.route q))
      ∧ Completes (.cfgSwi a w) s (fun t => s.keeps t ∧ ∀ k, k ∈ t.dev.edges ↔ k ∈ d.edges ∨ ∃ n, n < 32 ∧ w.getLsbD n = true ∧ k = 224 + n))
    ∧ (s.mayWriteSlot a 1 = true → Completes (.snpGo a) s (fun t => s.keeps t ∧ t.dev.rb rSnpCtl 0 = true ∧ ∀ q, q ≠ rSnpCtl → t.dev.reg q = d.reg q))
    ∧ (s.mayWriteSlot a 2 = true →
      let none_ := (List.range Config.clusters).all (fun k => w.getLsbD k || d.rb rPwrNapen k)
      (none_ = false → Completes (.yrdForbidWrite a w) s (fun t => s.keeps t ∧ t.dev.rweOf rYrdForbid = some (w.setWidth 64) ∧ t.dev.reg rYrdForbid = d.reg rYrdForbid))
      ∧ (none_ = true → Completes (.yrdForbidWrite a w) s (fun t => s.keeps t ∧ t.dev.rweOf rYrdForbid = d.rweOf rYrdForbid ∧ t.dev.rb rYrdErr 1 = true))
      ∧ (d.rb rYrdSnap 0 = false → Completes (.yrdSnapGo a v) s (fun t => s.keeps t ∧
        t.dev.rb rYrdSnap 0 = true ∧ t.dev.rf rYrdSnap 12 36 = fld v 12 36 ∧ t.dev.rf rYrdSnap 8 2 = fld v 8 2))
      ∧ (y.pinq.length < 64 →
        Completes (.pinCommand a c tr) s (fun t => s.keeps t ∧ t.dev.yard = { y with pinq := y.pinq ++ [⟨true, c.toNat, tr.toNat⟩] })
        ∧ Completes (.unpinCommand a tr) s (fun t => s.keeps t ∧ t.dev.yard = { y with pinq := y.pinq ++ [⟨false, 0, tr.toNat⟩] }))
      ∧ (64 ≤ y.pinq.length → Completes (.pinCommand a c tr) s (fun t => s.keeps t ∧ t.dev.yard = y ∧ t.dev.rb rYrdErr 0 = true)))
    ∧ (s.mayWriteSlot a 5 = true →
      (badSel → Completes (.jnlQdataWrite a w) s (fun t => s.keeps t ∧ t.dev.rb rJnlQsel 63 = true ∧ t.dev.jnl = d.jnl))
      ∧ (¬ badSel → d.hub.markers = [] → Completes (.jnlQdataWrite a w) s (fun t => s.keeps t ∧ t.dev.sel jq = (w &&& 0xFF0F3F#32).toNat ∧ ∀ q, q ≠ jq → t.dev.sel q = d.sel q)))
    ∧ (SMap.get (fun _ => (none : Option Word)) d.box.rws rPwrCaution = some v → Completes .rwsApply s (fun t => s.keeps t ∧
      t.dev.box.caution = v ∧ t.dev.box.rws = [] ∧ (d.box.power = .on → t.dev.reg rPwrCaution = v)))
    ∧ (d.box.ilk = [h] → h.off = r → Completes (.interlockTimeout rst) s (fun t => s.keeps t ∧ failed t r 2))
    ∧ (d.box.ilk = [] → exec (.interlockTimeout rst) s = .next s)
    ∧ (s.mayWriteSlot a (if rst then 10 else 6) = true → d.box.ilk = [] → Completes (.interlockValueWrite a rst v) s (fun t => s.keeps t ∧
      t.dev.box.ilk = [⟨a, r, v⟩] ∧ ∀ q, t.dev.reg q = d.reg q))
    ∧ (s.mayWriteSlot a 6 = true →
      (d.box.ilk = [⟨a, rLlBypass, 2#64⟩] → Completes (.leave a) s (fun t => t.dev.box.ilk = [] ∧ t.dev.reg rLlBypass = 2#64))
      ∧ (d.box.ilk = [⟨a, rLlBypass, 1#64⟩] → Completes (.force a true) s (fun t =>
        t.dev.box.ilk = [] ∧ t.dev.ring.state = .out ∧ t.dev.rb rLlBypass 0 = true ∧ t.dev.rb rLlBypass 1 = false))
      ∧ (d.box.ilk = [⟨a, rLlBypass, 0#64⟩] → d.rb rLlBypass 0 = true → d.ring.state = .out → d.inService = true → Completes (.force a false) s (fun t =>
        t.dev.box.ilk = [] ∧ t.dev.ring.state = .joining ∧ t.dev.reg rLlBypass = 0#64))
      ∧ (d.box.ilk = [] → Completes (.leave a) s (fun t => failed t rLlBypass 3 ∧ t.dev.reg rLlBypass = d.reg rLlBypass))
      ∧ (d.box.ilk = [h] → h.off = rLlBypass → h.agent ≠ a → Completes (.leave a) s (fun t => failed t rLlBypass 4)))

/-- THREAD_RESTART, CLUSTER_RESET, DEVICE_SOFT_RESET, STANDBY_ENTRY, WARM_START, POWER_DOWN, POWER_FAIL_RESET, POWER_FAIL_RESTART, CLOCK_FAULT_RESET, PLL_RELOCK, WAKE and THERMTRIP
(R124, R481, R520, R529-R537, R546, R549, R570): a restarted thread keeps its registers but not its consist, loops or interrupts; a reset cluster's threads are as at a release, its slots read 0 and its
caches are empty; every reset of the device leaves no thread state, and all but the loss of power leave HBM as it was; a wake and each recovery begin a start of their kind. -/
def Obligations.ResetsLeaveWhatTheyShould : Prop :=
  ∀ (s : State) (a : Agent) (g c rail mv : Nat) (mask : BitVec 32),
    let d := s.dev
    let p := d.box.power
    let t := s.thread g
    let x := d.tstart g
    let armed := fun (w : Word) => s.mayWriteSlot a 10 = true ∧ d.box.ilk = [⟨a, rPwrRstcmd, w⟩] ∧ d.box.rst = none ∧ d.box.rstNext = none
    let restarted : Thread := { t with
      lp0 := { t.lp0 with ln := 0 }, lp1 := { t.lp1 with ln := 0 }, lp2 := { t.lp2 with ln := 0 }, wd := 0, es := .zero, mc := none, shadow := none,
      fps := setBit t.fps 19 false, irqs := [], consist := none, releasing := false }
    let base := Config.storeBase + 0x1000000 * c
    (g < Config.threads → armed (word (g * 2 ^ 16 + 1)) →
      (t.still = true → Completes (.threadRestart a g) s (fun u => u.dev.box.rst = none ∧ (∀ h, h ≠ g → u.thread h = s.thread h)
        ∧ u.thread g = (if d.inPool g then { restarted with run := .free }
            else { restarted with run := .running, pc := x.pc &&& ~~~3#64, ts := x.ts &&& 0xBF7F#64 })))
      ∧ (t.still = false → Completes (.threadRestart a g) s (fun u => u.thread g = t ∧ u.dev.stopping g = true ∧ u.dev.coreRuns g = false)))
    ∧ (clustersOf mask.toNat = [c] → armed (word (mask.toNat * 2 ^ 32 + 2)) → d.clusterLive c = true → d.clusterStill c = true →
      Completes (.clusterReset a mask) s (fun u => u.dev.box.rst = none ∧ (∀ l, l < 96 → u.thread (96 * c + l) = d.freshThread false (96 * c + l))
        ∧ (∀ h, clusterOf h ≠ c → u.thread h = s.thread h) ∧ (u.dev.cluster c).lines = [] ∧ (u.dev.cluster c).ccc = 0
        ∧ (u.dev.cluster c).released = true ∧ ∀ b, base + 0x3FB000 ≤ b → b < base + 0x400000 → u.dev.byteAt b = 0))
    ∧ (armed 3#64 → Completes (.deviceSoftReset a) s (fun u => s.begun 3 u ∧ s.hbmKept u))
    ∧ (armed 4#64 → d.yard.moves = [] → (∀ k, k < Config.clusters → d.clusterStill k = true) → Completes (.standbyEntry a) s (fun u =>
      s.bare u ∧ u.dev.box.power = .standby ∧ ∀ h, h < 4 → u.dev.rb (rHbmStatus h) 1 = true))
    ∧ (d.box.resetN = true → (p = .on ∨ p = .standby) → Completes (.warmStart false) s (fun u =>
      s.bare u ∧ s.hbmKept u ∧ u.dev.box.power = .held ∧ u.dev.box.resetN = false))
    ∧ (d.box.resetN = false → p = .held → Completes (.warmStart true) s (fun u => s.begun d.box.kind u ∧ u.dev.box.resetN = true ∧ u.dev.box.scan = none))
    ∧ Completes .powerDown s (fun u => s.bare u ∧ u.dev.box.power = .off)
    ∧ (rail < 8 → p = .on → ((mv : Int) * 100 ≤ d.resetLevel rail → Completes (.powerFailReset rail mv) s (fun u => s.bare u ∧ u.dev.box.power = .powerFail))
      ∧ (d.resetLevel rail < (mv : Int) * 100 → exec (.powerFailReset rail mv) s = .next s))
    ∧ (p = .powerFail → d.box.resetN = true → Completes .powerFailRestart s (fun u => s.begun 2 u))
    ∧ (p = .on → Completes .clockFaultReset s (fun u => s.bare u ∧ s.hbmKept u ∧ u.dev.box.power = .clockFault))
    ∧ (p = .clockFault → d.box.resetN = true → Completes .pllRelock s (fun u => s.begun 5 u))
    ∧ (p = .standby → d.box.resetN = true → Completes .wake s (fun u => s.begun 4 u))
    ∧ (p ≠ .standby → exec .wake s = .next s)
    ∧ (p ≠ .off → p ≠ .tripped → Completes .thermtrip s (fun u => s.bare u ∧ u.dev.box.power = .tripped ∧ ∀ h, h < 4 → u.dev.rb (rHbmStatus h) 1 = true))

/-- COLD_START, HBM_TRAINING_DONE, IMAGE_READ_DONE, IMAGE_SLOT_FAILURE and CLUSTER_RELEASE (R124, R480-R484, R491, R530, R563): a start proceeds by phases; an image that breaks a check
fails its slot with the check's code, and slot 1 is read where it exists; an accepted image's Timetable is in force, its staging region reads 0 and the flash is
released; the clusters are released with every thread as the start table has it, and the device begins to join its ring. -/
def Obligations.StartProceedsByPhases : Prop :=
  ∀ (s : State) (strap len code e : Nat) (big : Bool) (img : List Byte) (x : Dev),
    let d := s.dev
    let b := d.box
    let lo := if b.slot1 then 48 else 40
    let again := fun (ended : Nat) => b.slot1 = false ∧ big = true ∧ ended ≤ 0x8000000
    let second := fun (n : Nat) (t : State) => t.dev.box.slot1 = true ∧ t.dev.phase = 2 ∧ t.dev.rf rSbxStart 40 8 = n
      ∧ t.dev.box.log = b.log ++ [.slot 0 n]
    let failed := fun (n : Nat) (t : State) => t.dev.phase = 7 ∧ t.dev.rf rSbxStart lo 8 = n ∧ t.dev.rb rSbxStart 35 = true ∧ t.dev.reg rSbxTtgen = 0
      ∧ (∀ g, t.thread g = s.thread g)
    (strap < 4 → b.power = .off →
      (b.resetN = true → Completes (.coldStart strap) s (fun t => s.begun 0 t ∧ t.dev.box.strap = strap ∧ t.dev.box.scan = none ∧ t.dev.rf rPwrCaution 32 32 = 0))
      ∧ (b.resetN = false → Completes (.coldStart strap) s (fun t => s.bare t ∧ t.dev.box.power = .held ∧ t.dev.box.kind = 0 ∧ t.dev.box.strap = strap)))
    ∧ (strap < 4 → b.power ≠ .off → exec (.coldStart strap) s = .next s)
    ∧ (b.power = .on →
      (d.phase = 1 → Completes (.hbmTrainingDone true) s (fun t => s.keeps t ∧ t.dev.phase = 2 ∧ ∀ g, t.thread g = s.thread g))
      ∧ (d.phase = 5 → Completes (.hbmTrainingDone true) s (fun t => s.keeps t ∧
        t.dev.phase = 5 ∧ ∀ h, h < 4 → t.dev.rb (rHbmStatus h) 0 = true ∧ t.dev.rb (rHbmStatus h) 1 = false))
      ∧ (d.phase = 5 → Completes (.hbmTrainingDone false) s (failed 12))
      ∧ (d.phase = 2 →
        (imageError d.svFloor img = some e → again img.length → Completes (.imageReadDone big img) s (second e))
        ∧ (imageError d.svFloor img = some e → ¬ again img.length → Completes (.imageReadDone big img) s (failed e))
        ∧ (imageError d.svFloor img = none → d.loadImage (img.take (imgSize img)) = none → ¬ again img.length →
          Completes (.imageReadDone big img) s (failed 10))
        ∧ (imageError d.svFloor img = none → d.loadImage (img.take (imgSize img)) = some x → Completes (.imageReadDone big img) s (fun t =>
          t.dev.phase = 5 ∧ t.dev.tt = x.tt ∧ t.dev.rb rSbxStart 35 = true ∧ t.dev.rb rSbxStart 34 = x.box.slot1 ∧ t.dev.reg rSbxTtgen = word x.tt.gen
          ∧ t.dev.yard = x.yard ∧ t.dev.hub = x.hub ∧ (∀ k, stagingBase ≤ k → k < Config.hbmEnd → t.dev.byteAt k = 0)
          ∧ ∀ k, k < stagingBase → t.dev.byteAt k = x.byteAt k))
        ∧ (code ∈ [1, 2, 3, 6, 11] → again len → Completes (.imageSlotFailure big len code) s (second code))
        ∧ (code ∈ [1, 2, 3, 6, 11] → ¬ again len → Completes (.imageSlotFailure big len code) s (failed code)))
      ∧ (d.phase = 5 → Completes .clusterRelease s (fun t => t.dev.phase = 6 ∧ t.dev.box.startTod = d.now
        ∧ (∀ c, c < Config.clusters → (t.dev.cluster c).released = true ∧ (t.dev.cluster c).ccc = 0 ∧ (t.dev.cluster c).napping = false)
        ∧ (∀ g, g < Config.threads → t.thread g = d.freshThread false g) ∧ (d.ring.state = .out → t.dev.ring.state = if d.rb rLlBypass 0 then .out else .joining)))
      ∧ (d.phase ≠ 5 → exec .clusterRelease s = .next s))

/-- CAUTION_ENTRY, CAUTION_EXIT, VCORE_SETPOINT_REPORTED, THERMAL_SENSOR_READ, NAP_ENTRY, NAP_EXIT, DOZE_ENTRY and DOZE_EXIT (R521, R528, R534, R535, R539, R540, R549): CAUTION is counted
and slows the cores to 1.5 GHz at once; a faster step waits for its set point; a limit is applied at its threshold and released 3 degrees below; a napping cluster
keeps nothing of its stores and wakes with fresh threads; a core dozes only while no thread of it runs. -/
def Obligations.PowerManagementFollowsItsLimits : Prop :=
  ∀ (s : State) (rail mv c core : Nat) (raw : List Int) (m : Int),
    let d := s.dev
    let w := d.box.caution
    let step := fun (t : State) => t.dev.rf rPwrStatus 0 2
    let base := Nat.max (d.rf rPwrCtl 0 2) d.box.thermal
    let idle := ∀ l, l < 96 → (s.thread (96 * c + l)).run = .free ∧ (s.thread (96 * c + l)).still = true
    (rail < 8 → d.box.power = .on →
      ((mv : Int) * 100 < d.warnLevel rail → d.rb rPwrStatus 2 = false → d.box.thermal ≤ 3 → Completes (.cautionEntry rail mv) s (fun t => s.keeps t ∧
        t.dev.rb rPwrStatus 2 = true ∧ t.dev.rb rPwrStatus 8 = true ∧ fld t.dev.box.caution 32 32 = sat (2 ^ 32 - 1) (fld w 32 32 + 1)
        ∧ fld t.dev.box.caution 20 12 = mv % 4096 ∧ fld t.dev.box.caution 16 4 = rail ∧ 2 ≤ step t ∧ t.dev.box.log = d.box.log ++ [.caution rail mv]))
      ∧ (d.warnLevel rail ≤ (mv : Int) * 100 → exec (.cautionEntry rail mv) s = .next s))
    ∧ (d.rb rPwrStatus 2 = true → base = d.box.vstep → d.box.avs = false → Completes .cautionExit s (fun t => s.keeps t ∧ t.dev.rb rPwrStatus 2 = false ∧ step t = base % 4))
    ∧ (d.rb rPwrStatus 2 = false → exec .cautionExit s = .next s)
    ∧ (d.box.avs = true → d.rb rPwrStatus 2 = false → base = d.box.vstep → Completes .vcoreSetpointReported s (fun t => s.keeps t ∧
      t.dev.rf rPwrStatus 48 16 = fusedMv d.box.vstep ∧ t.dev.box.avs = false ∧ step t = base % 4))
    ∧ (d.box.avs = false → exec .vcoreSetpointReported s = .next s)
    ∧ (raw.length = 40 → d.box.power ≠ .off → (∀ i, i < 40 → raw.getD i 0 + d.calEff i ≤ m) → (∃ i, i < 40 ∧ raw.getD i 0 + d.calEff i = m) →
      Completes (.thermalSensorRead raw) s (fun t => s.keeps t ∧ t.dev.box.hot = m
        ∧ (∀ k, k ≤ 3 → (k = 0 ∨ thermalThreshold k ≤ m) → k ≤ t.dev.box.thermal)
        ∧ (∀ k, 1 ≤ k → k ≤ 3 → m ≤ thermalThreshold k - 24 → t.dev.box.thermal < k)
        ∧ (∀ k, 1 ≤ k → k ≤ 3 → k ≤ d.box.thermal → thermalThreshold k - 24 < m → k ≤ t.dev.box.thermal)
        ∧ (d.box.power = .on → t.dev.box.thermal ≤ step t)))
    ∧ (c < Config.clusters →
      (d.clusterLive c = true → d.rb rPwrNapen c = true → d.homed c = 0 → idle → d.resetting c = false → Completes (.napEntry c) s (fun t =>
        (t.dev.cluster c).napping = true ∧ (t.dev.cluster c).lines = [] ∧ t.dev.rb rPwrStatus (16 + c) = true
        ∧ (∀ b, Config.storeBase + 0x1000000 * c ≤ b → b < Config.storeBase + 0x1000000 * (c + 1) → t.dev.byteAt b = 0)
        ∧ ∀ g, t.thread g = s.thread g))
      ∧ (d.rb rPwrNapen c = false → exec (.napEntry c) s = .next s)
      ∧ ((d.cluster c).napping = true → d.rb rPwrNapen c = false → Completes (.napExit c) s (fun t =>
        (t.dev.cluster c).napping = false ∧ t.dev.rb rPwrStatus (16 + c) = false
        ∧ (∀ l, l < 96 → t.thread (96 * c + l) = d.freshThread true (96 * c + l)) ∧ ∀ g, clusterOf g ≠ c → t.thread g = s.thread g)))
    ∧ (core < 384 →
      (d.clusterLive (core / 12) = true → core ∉ d.gated → (∀ i, i < 8 → (s.thread (8 * core + i)).run ≠ .running) →
        exec (.dozeEntry core) s = .next (s.withDev { d with gated := d.gated ++ [core] }))
      ∧ ((∃ i, i < 8 ∧ (s.thread (8 * core + i)).run = .running) → exec (.dozeEntry core) s = .next s)
      ∧ ((∃ i, i < 8 ∧ ((s.thread (8 * core + i)).run = .running ∨ (s.thread (8 * core + i)).irqs ≠ [])) → Completes (.dozeExit core) s (fun t => s.keeps t ∧
        core ∉ t.dev.gated ∧ (∀ k, k ≠ core → (k ∈ t.dev.gated ↔ k ∈ d.gated)) ∧ ∀ g, t.thread g = s.thread g)))

/-- SYNC, IDENTITY, QUOTE, MAILBOX_COMMAND_DONE, SCRUB_READ, TIMER_EXPIRY, SBX_RNG_READ, RNG_HEALTH_FAIL and CLK_TODSTEP (R421, R458, R459, R488, R489, R492, R524, R525): a mailbox command
stands until it is done (a QUOTE waits for its turn, R493), or fails with ECAUSE 3 where its link is down (the model's reading, assumption 98); its buffer is written with bytes 0-7 last, then the message goes out; a scrub read counts and never writes; a timer that is due raises its source and runs on by its period; random
bits are free values (assumption 10) and read 0 once the generator has stopped; a time step is taken only outside the ring. -/
def Obligations.MailboxTimersAndGeneratorAnswer : Prop :=
  ∀ (s : State) (a : Agent) (ctl tag vec i addr : Nat) (nonce : List Byte) (bs : List PByte) (v : BitVec 64),
    let d := s.dev
    let cmd := rPciMbxCmd ctl
    let buf := d.rf (rPciMbxAddr ctl) 12 52 * 4096
    let begins := fun (c : Instr) (code : Nat) => Completes c s (fun t => t.dev.mbx ctl = some ⟨code, none, if code = 3 then d.nextQuote (1 - ctl) else 0⟩ ∧ t.dev.rb cmd 0 = true
      ∧ t.dev.rf cmd 8 8 = code ∧ t.dev.rf cmd 16 11 = vec % 2 ^ 11 ∧ t.dev.rf cmd 32 32 = tag % 2 ^ 32)
    let failed := fun (c : Instr) => Completes c s (fun t => t.dev.mbx ctl = none ∧ t.dev.rb cmd 0 = false ∧ t.dev.rb cmd 2 = true ∧ t.dev.rf cmd 3 3 = 3)
    let done := fun (content : List Byte) => Completes (.mailboxCommandDone ctl nonce) s (fun t => s.keeps t ∧
      t.dev.out = d.out ++ [.hostWrite ctl pf0 (buf + 8) (clean (content.drop 8)), .hostWrite ctl pf0 buf (clean (content.take 8)), .msix ctl pf0 (d.rf cmd 16 11)]
      ∧ t.dev.mbx ctl = none ∧ t.dev.rb cmd 0 = false ∧ t.dev.rb cmd 1 = true)
    let head := d.quoteHead nonce
    let l := addr / 64
    let tm := d.timer i
    (ctl < 2 →
      (s.mayWriteSlot a (14 + ctl) = true → d.rb cmd 0 = false → d.mbx ctl = none → d.pcieUp ctl = true →
        begins (.sync a ctl tag vec) 1 ∧ begins (.identity a ctl tag vec) 2 ∧ begins (.quote a ctl tag vec) 3)
      ∧ (s.mayWriteSlot a (14 + ctl) = true → d.rb cmd 0 = false → d.mbx ctl = none → d.pcieUp ctl = false →
        failed (.sync a ctl tag vec) ∧ failed (.identity a ctl tag vec) ∧ failed (.quote a ctl tag vec))
      ∧ (d.mbx ctl = some ⟨1, some bs, i⟩ → done (vals bs))
      ∧ (d.mbx ctl = some ⟨1, none, i⟩ → exec (.mailboxCommandDone ctl nonce) s = .next s)
      ∧ (d.mbx ctl = some ⟨2, none, i⟩ → done identityBytes)
      ∧ (d.mbx ctl = some ⟨3, none, i⟩ → d.quoteTurn ctl ⟨3, none, i⟩ = false → exec (.mailboxCommandDone ctl nonce) s = .next s)
      ∧ (d.mbx ctl = some ⟨3, none, i⟩ → d.quoteTurn ctl ⟨3, none, i⟩ = true → d.box.rngStopped = false →
        done (padTo 4096 (padTo 256 head ++ padTo 3309 (Config.mlDsaSign d.free (shake256 head) (ascii "RT9600-QUOTE")))))
      ∧ (d.mbx ctl = some ⟨3, none, i⟩ → d.quoteTurn ctl ⟨3, none, i⟩ = true → d.box.rngStopped = true → Completes (.mailboxCommandDone ctl nonce) s (fun t => s.keeps t ∧
        t.dev.mbx ctl = none ∧ t.dev.rb cmd 0 = false ∧ t.dev.rb cmd 2 = true ∧ t.dev.rf cmd 3 3 = 1 ∧ t.dev.out = d.out)))
    ∧ (d.inService = true → d.rb rMicCtl 1 = true → addr < Config.hbmEnd → Completes (.scrubRead addr []) s (fun t =>
      t.dev.mem = d.mem ∧ (∀ g, t.thread g = s.thread g)
      ∧ (∀ die, hbmDecode d l (d.hbmUps l) (d.lineMarked l) = .corrected die →
        t.dev.rf rMicStatus 40 24 = sat (2 ^ 24 - 1) (d.rf rMicStatus 40 24 + 1) ∧ t.dev.rf (rHbmErr (l % 4)) 32 32 = sat (2 ^ 32 - 1) (d.rf (rHbmErr (l % 4)) 32 32 + 1))
      ∧ (hbmDecode d l (d.hbmUps l) (d.lineMarked l) = .uncorrectable →
        t.dev.rf rMicStatus 24 16 = sat 65535 (d.rf rMicStatus 24 16 + 1) ∧ t.dev.rb rMicStatus 2 = true)))
    ∧ (d.rb rMicCtl 1 = false → exec (.scrubRead addr []) s = .next s)
    ∧ (i < 128 → d.box.power = .on → tm.en = true →
      (tm.deadline ≤ d.now → Completes (.timerExpiry i) s (fun t => s.keeps t ∧ 96 + i ∈ t.dev.edges
        ∧ (tm.period = 0 → t.dev.timer i = { tm with en := false })
        ∧ (tm.period ≠ 0 → t.dev.timer i = { tm with deadline := (tm.deadline + ((d.now - tm.deadline) / tm.period + 1) * tm.period) % 2 ^ 64 })
        ∧ ∀ k, k ≠ i → t.dev.timer k = d.timer k))
      ∧ (d.now < tm.deadline → exec (.timerExpiry i) s = .next s))
    ∧ (agentExists a = true → d.box.power = .on →
      (d.box.rngStopped = false → exec (.sbxRngRead a) s = .next (s.withDev { d with
        free := d.free + 1, box := { d.box with rngReqs := (d.box.rngReqs + 1) % 2 ^ 20 }, out := d.out ++ [.value a (Config.freeWord d.free)] }))
      ∧ (d.box.rngStopped = true → exec (.sbxRngRead a) s = .next (s.withDev { d with out := d.out ++ [.value a 0] })))
    ∧ (d.box.power = .on → exec .rngHealthFail s = .next (s.withDev { d with box := { d.box with rngStopped := true, log := d.box.log ++ [.rngFail] } }))
    ∧ (s.mayWriteSlot a 9 = true →
      ((d.ring.state = .out ∨ d.ring.state = .joining ∨ d.ring.state = .resync) → Completes (.clkTodstep a v) s (fun t => s.keeps t ∧
        t.dev.tod = (((d.tod : Int) + v.toInt * 3000000000) % (2 ^ 64 * 3000000000)).toNat))
      ∧ ((d.ring.state = .member ∨ d.ring.state = .leaving ∨ d.ring.state = .fenced) → Completes (.clkTodstep a v) s (fun t => s.keeps t ∧
        t.dev.tod = d.tod ∧ t.dev.rb rClkTodadj 63 = true)))

/-- FREEZE, REARM, EXPORT, IMPORT, EXPORT_IMPORT_DONE, FREEZE_INSTANT, CHECKPOINT, TRIG_IN_EDGE and the REPLAY_ commands (R497, R503-R507, R510-R513, R515-R518): the first trigger while capturing waits for its freeze
instant, which ends the capture and fixes the window; a checkpoint records the cluster as it is quiet; a bundle goes out to host memory with its first 8 bytes last, or an error cause is left; a replay proceeds
from ENTER over LOAD and GO, record by record, to its end, its stop or a divergence, and EXIT gives the cluster back as after a reset. -/
def Obligations.TrainRegisterCapturesAndReplays : Prop :=
  ∀ (s : State) (a : Agent) (v : BitVec 64) (c : BitVec 5) (k : Nat) (asked : Bool) (p : TrigPend) (f : Frozen) (r : CapRec) (rest : List CapRec)
    (host n : Nat) (extents : List (Nat × Nat)) (io : BundleIo),
    let d := s.dev
    let x := d.trg.replay
    let may := s.mayWriteSlot a 11 = true
    let lab := d.rf rTrgRplCtl 8 5
    let base := d.rf rTrgRplBase 12 36 * 4096
    let total := (extents.map (fun e => e.2)).sum
    let mask := d.rf rTrgExpCtl 32 32
    let hf := fun (o z : Nat) => ofLe ((io.bytes.drop o).take z)
    let expFailed := fun (t : State) (cause : Nat) => t.dev.rb rTrgExpCtl 0 = false ∧ t.dev.rb rTrgExpCtl 2 = true ∧ t.dev.rf rTrgExpCtl 18 3 = cause
      ∧ t.dev.rb rTrgStatus 5 = true ∧ t.dev.out = d.out
    let bs := d.bundleBytes f mask
    let stop := d.rf rTrgRplStopat 0 48
    (may →
      (d.trgState = 1 → d.trg.pend = none → d.rb rTrgCtl 24 = true → Completes (.freeze a) s (fun t => s.keeps t ∧ t.dev.trg.pend = some ⟨5, 0xFF, 0xFF, 0, 0, d.now + 1000 * d.rf rTrgCtl 12 8⟩ ∧ t.dev.trgState = 1))
      ∧ (d.trgState ≠ 1 → Completes (.freeze a) s (fun t => s.keeps t ∧ t.dev.trg = d.trg ∧ t.dev.rb rTrgCtl 0 = false))
      ∧ (d.trgState ≠ 3 → Completes (.rearm a) s (fun t => s.keeps t ∧ t.dev.trg = { d.trg with arm := true }))
      ∧ (d.trgState = 3 → Completes (.rearm a) s (fun t => s.keeps t ∧ t.dev.trg = d.trg ∧ t.dev.rb rTrgCtl 1 = false))
      ∧ (d.rb rTrgExpCtl 0 = false →
        (d.trgState = 2 → d.trg.frozen = some f → Completes (.trainExport a v) s (fun t => s.keeps t ∧ t.dev.trgState = 3 ∧ t.dev.rb rTrgExpCtl 0 = true
          ∧ t.dev.rb rTrgExpCtl 3 = false ∧ t.dev.rf rTrgExpCtl 32 32 = fld v 32 32))
        ∧ (d.trgState ≠ 2 → Completes (.trainExport a v) s (fun t => s.keeps t ∧ expFailed t 1))
        ∧ (d.rstate = 1 → Completes (.trainImport a v) s (fun t => s.keeps t ∧ t.dev.rb rTrgExpCtl 0 = true ∧ t.dev.rb rTrgExpCtl 3 = true
          ∧ t.dev.rf rTrgExpCtl 32 32 = fld v 32 32))
        ∧ (d.rstate ≠ 1 → Completes (.trainImport a v) s (fun t => s.keeps t ∧ expFailed t 1)))
      ∧ (d.rstate = 0 → d.homed c.toNat = 0 → Completes (.replayEnter a c) s (fun t => t.dev.rstate = 1 ∧ t.dev.trgState = 4
        ∧ t.dev.replaying c.toNat = true ∧ (t.dev.cluster c.toNat).released = false ∧ t.dev.trg.replay = Replay.reset))
      ∧ (d.rstate = 0 → d.homed c.toNat ≠ 0 → Completes (.replayEnter a c) s (fun t => t.dev.rstate = 0 ∧ t.dev.trgState = d.trgState))
      ∧ (d.rstate = 1 → x.imported = true → 16 ≤ x.len → Completes (.replayLoad a) s (fun t => s.keeps t ∧ t.dev.rstate = 2 ∧ t.dev.trg.replay.resp = []
        ∧ t.dev.trg.replay.clu.ccc = 10 * ofLe ((List.range 8).map (fun j => d.byteAt (base + 8 + j)))))
      ∧ (d.rstate = 1 → x.imported = false → Completes (.replayLoad a) s (fun t => s.keeps t ∧ t.dev.rstate = 1))
      ∧ (d.rstate = 2 → Completes (.replayGo a) s (fun t => s.keeps t ∧ t.dev.rstate = 3 ∧ t.dev.trg.replay = { x with goAt := x.clu.ccc / 10 % 2 ^ 48 }))
      ∧ (d.rstate ≠ 2 → Completes (.replayGo a) s (fun t => s.keeps t ∧ t.dev.rstate = d.rstate ∧ t.dev.trg.replay = x))
      ∧ ((d.rstate = 2 ∨ d.rstate = 4 ∨ d.rstate = 5) → 0x100000 ≤ base → base ≤ Config.hbmEnd → Completes (.replayDump a) s (fun t =>
        t.dev.rstate = d.rstate ∧ (∀ j b, (ascii "RT96CKPT")[j]? = some b → t.dev.byteAt (base - 0x100000 + j) = b)
        ∧ ∀ b, b < Config.hbmEnd → (b < base - 0x100000 ∨ base ≤ b) → t.dev.byteAt b = d.byteAt b))
      ∧ (d.rstate ≠ 0 → (d.cluster lab).napping = false → Completes (.replayExit a) s (fun t => t.dev.rstate = 0
        ∧ t.dev.trgState = (if d.trg.frozen.isSome then 2 else 0) ∧ (t.dev.cluster lab).released = true
        ∧ ∀ l, l < 96 → t.thread (96 * lab + l) = d.freshThread false (96 * lab + l))))
    ∧ (d.inService = true → d.trgState = 1 → d.trg.pend = none → d.rb rTrgCtl 25 = true → Completes .trigInEdge s (fun t => s.keeps t ∧
      t.dev.trg.pend = some ⟨6, 0xFF, 0xFF, 0, 0, d.now + 1000 * d.rf rTrgCtl 12 8⟩))
    ∧ (d.inService = true → d.trgState = 1 → d.trg.pend = some p → d.rb rTrgCtl 25 = true → Completes .trigInEdge s (fun t => s.keeps t ∧
      t.dev.trg = d.trg ∧ t.dev.rf rTrgStatus 56 8 = sat 255 (d.rf rTrgStatus 56 8 + 1)))
    ∧ (d.trg.pend = some p → d.trgState = 1 → p.due ≤ d.now → (∀ m ∈ clustersOf d.trg.clusters, (d.cluster m).held = false) → Completes .freezeInstant s (fun t => s.keeps t ∧
      t.dev.trgState = 2 ∧ t.dev.rb rTrgStatus 3 = true ∧ t.dev.rf rTrgStatus 20 4 = p.code % 16 ∧ t.dev.rf rTrgStatus 24 8 = p.cluster % 256
      ∧ t.dev.rf rTrgStatus 32 8 = p.localId % 256 ∧ t.dev.rb rTrgCtl 0 = false ∧ t.dev.trg.pend = none
      ∧ (∃ z, t.dev.trg.frozen = some z ∧ z.trig = p ∧ z.tod = d.now ∧ z.epoch = d.jnl.epoch
        ∧ ∀ m ∈ clustersOf d.trg.clusters, (SMap.get (fun _ => FImage.mk 0 [] []) z.images m).stamp = d.stamp m)
      ∧ ∀ g, t.thread g = s.thread g))
    ∧ (d.trg.pend = none → exec .freezeInstant s = .next s)
    ∧ (d.trg.pend = some p → d.now < p.due → exec .freezeInstant s = .next s)
    ∧ (k < Config.clusters → (d.cluster k).held = true → d.clusterQuiet k = true → d.capturing k = true →
      SMap.wf (fun _ => Thread.reset) d.thr = true → Completes (.checkpoint k) s (fun t =>
      (t.dev.cluster k).held = false ∧ (t.dev.share k).undone = [] ∧ (t.dev.share k).acct = []
      ∧ ∃ z, (t.dev.share k).ckpts.getLast? = some z ∧ z.ccc = (d.cluster k).ccc / 10 ∧ z.time = d.now ∧ z.fresh = false
        ∧ ∀ l, l < 96 → SMap.get (fun _ => Thread.reset) z.thr (96 * k + l) = { s.thread (96 * k + l) with fetchLine := none }))
    ∧ (k < Config.clusters → (d.cluster k).held = false → exec (.checkpoint k) s = .next s)
    ∧ (d.rb rTrgExpCtl 0 = true → d.rb rTrgExpCtl 3 = false → d.trg.frozen = some f → d.trgState = 3 →
      (bs.length ≤ n → Completes (.exportImportDone [(host, n)] io) s (fun t =>
        (∃ sent : List PByte, vals sent = bs ∧ (∀ i b, sent[i]? = some b → (b.poison = true ↔ 4096 ≤ i ∧ i / 8 ∈ io.ues))
          ∧ t.dev.out = d.out ++ [.hostWrite (d.rf rTrgExpCtl 4 1) pf2 (host + 8) (sent.drop 8), .hostWrite (d.rf rTrgExpCtl 4 1) pf2 host (sent.take 8),
            .msix (d.rf rTrgExpCtl 4 1) pf2 (d.rf rTrgExpCtl 21 11)])
        ∧ (∀ i, 512 ≤ i → i < bs.length / 8 → i ∈ io.ues → t.dev.rb rMicStatus 4 = true)
        ∧ t.dev.rb rTrgExpCtl 0 = false ∧ t.dev.rb rTrgExpCtl 1 = true ∧ t.dev.trgState = 2))
      ∧ (total < bs.length → Completes (.exportImportDone extents io) s (fun t => expFailed t 2 ∧ t.dev.trgState = 2)))
    ∧ (d.rb rTrgExpCtl 0 = true → d.rb rTrgExpCtl 3 = true → clustersOf mask = [k] →
      let off := hf (256 + 32 * k) 8
      let len := hf (264 + 32 * k) 8
      ((total < 4096 ∨ total < off + len) → Completes (.exportImportDone extents io) s (fun t => expFailed t 2))
      ∧ (4096 ≤ total → off + len ≤ total → hf 8 2 = 1 → hf 10 2 = 0x9600 → hf 12 1 = 0xA1 →
        (io.bytes.drop 16).take 96 = d.tt.digest ++ d.tt.cpDigest ++ d.tt.clpDigest → off ≠ 0 → 0x100000 ≤ base → base + len ≤ Config.hbmEnd →
        Completes (.exportImportDone extents io) s (fun t => t.dev.trg.replay = { x with field := k, imported := true, len := len, endAt := hf (280 + 32 * k) 6 }
          ∧ t.dev.rb rTrgExpCtl 0 = false ∧ t.dev.rb rTrgExpCtl 1 = true
          ∧ ∀ j b, j < len → (io.bytes.drop off)[j]? = some b → t.dev.byteAt (base + j) = b)))
    ∧ (d.rstate = 3 →
      (x.recs = [] → d.rb rTrgRplStopat 63 = false → Completes (.replayRecord asked) s (fun t => t.dev.rstate = 4 ∧ t.dev.trg.replay.clu.ccc = 10 * x.endAt))
      ∧ (x.recs = r :: rest → d.rb rTrgRplStopat 63 = true → x.goAt < stop → stop ≤ r.stamp → Completes (.replayRecord asked) s (fun t =>
        t.dev.rstate = 2 ∧ t.dev.trg.replay.clu.ccc = 10 * stop ∧ t.dev.trg.replay.recs = x.recs))
      ∧ (x.recs = r :: rest → d.rb rTrgRplStopat 63 = false →
        (r.isResponse = true → Completes (.replayRecord false) s (fun t => t.dev.rstate = 5 ∧ t.dev.rb rTrgStatus 6 = true ∧ t.dev.trg.replay.recs = x.recs))
        ∧ (r.isResponse = false → Completes (.replayRecord asked) s (fun t => t.dev.trg.replay.recs = rest ∧ t.dev.rstate = 3 ∧ (∀ g, t.thread g = s.thread g)
          ∧ t.dev.mem = d.mem))))
    ∧ (d.rstate ≠ 3 → exec (.replayRecord asked) s = .next s)

/-- PTP_FRAME_RECEIVED, PTP_RX_ENABLE, PTP_RX_HEAD_WRITE, PTP_TX, SIDEBAND_READ, SIDEBAND_STATUS, ETH_LINK_UP, ETH_LINK_DOWN, EXTEST, PPS_IN_EDGE and PPS_OUT_EDGE (R433, R550, R552-R556, R563, R564,
R569): a received IEEE 1588 message takes the ring's next slot; the ring starts empty where it lies in HBM; HEAD never passes TAIL; a transmit command is refused or sent with its time; the sideband reads the
always-on slots and refuses others; a link shows in its port's status; boundary scan drives the cells only while RESET_N is low. -/
def Obligations.PortsPinsAndSidebandAnswer : Prop :=
  ∀ (s : State) (p o cells : Nat) (a : Agent) (f : PtpIn) (v : BitVec 64) (w : BitVec 32) (lo n : Nat),
    let d := s.dev
    let idx := rEthPtprxidx p
    let head := d.rf idx 0 32
    let tail := d.rf idx 32 32
    let ring := d.rf (rEthPtpctl p) 14 34 * 2 ^ 14
    let slot := ring + 256 * (tail % 64)
    let cfg := d.portCfg p
    let txa := d.rf (rEthPtptxaddr p) 3 45 * 8
    let len := fld v 48 8
    let raw := d.readBytes txa len
    (p < 8 →
      (d.classify p (.ptp f) = .ptp → ring + 0x4000 ≤ Config.hbmEnd → Completes (.ptpFrameReceived p f) s (fun t =>
        t.dev.rf idx 32 32 = (tail + 1) % 2 ^ 32 ∧ t.dev.rf idx 0 32 = head
        ∧ (∀ j b, (ptpSlot d.now f)[j]? = some b → t.dev.byteAt (slot + j) = b)
        ∧ ∀ b, (b < slot ∨ slot + 256 ≤ b) → t.dev.byteAt b = d.byteAt b))
      ∧ (d.classify p (.ptp f) = .drop lo n → Completes (.ptpFrameReceived p f) s (fun t =>
        t.dev.rf rQmWtDrop lo n = sat (2 ^ n - 1) (d.rf rQmWtDrop lo n + 1) ∧ t.dev.mem = d.mem ∧ t.dev.reg idx = d.reg idx))
      ∧ (s.mayWriteSlot a (16 + p) = true →
        (d.rb (rEthPtpctl p) 0 = false → bit v 0 = true →
          (fld v 14 34 * 2 ^ 14 + 0x4000 ≤ Config.hbmEnd → Completes (.ptpRxEnable p a v) s (fun t => s.keeps t ∧
            t.dev.rb (rEthPtpctl p) 0 = true ∧ t.dev.rf (rEthPtpctl p) 14 34 = fld v 14 34 ∧ t.dev.reg idx = 0))
          ∧ (Config.hbmEnd < fld v 14 34 * 2 ^ 14 + 0x4000 → Completes (.ptpRxEnable p a v) s (fun t => s.keeps t ∧
            t.dev.rb (rEthPtpctl p) 0 = false ∧ t.dev.reg idx = d.reg idx)))
        ∧ ((tail + 2 ^ 32 - w.toNat) % 2 ^ 32 ≤ 64 → Completes (.ptpRxHeadWrite p a w) s (fun t => s.keeps t ∧ t.dev.rf idx 0 32 = w.toNat ∧ t.dev.rf idx 32 32 = tail))
        ∧ (64 < (tail + 2 ^ 32 - w.toNat) % 2 ^ 32 → Completes (.ptpRxHeadWrite p a w) s (fun t => s.keeps t ∧ t.dev.reg idx = d.reg idx))
        ∧ (d.rb (rEthPtptxcmd p) 0 = false →
          ((len < 60 ∨ 240 < len ∨ Config.hbmEnd < txa + len) → Completes (.ptpTx p a v) s (fun t => s.keeps t ∧
            t.dev.rb (rEthPtptxcmd p) 0 = false ∧ t.dev.rb (rEthPtptxcmd p) 3 = true ∧ t.dev.out = d.out))
          ∧ (60 ≤ len → len ≤ 240 → txa + len ≤ Config.hbmEnd → d.hears p = true → bit v 2 = false → anyPoison raw = false → Completes (.ptpTx p a v) s (fun t => s.keeps t ∧
            t.dev.rb (rEthPtptxcmd p) 0 = false ∧ t.dev.rb (rEthPtptxcmd p) 1 = true ∧ t.dev.reg (rEthPtptxts p) = word d.now
            ∧ t.dev.out = d.out ++ [.ptp p (clean (vals raw))]))
          ∧ (60 ≤ len → len ≤ 240 → txa + len ≤ Config.hbmEnd → d.hears p = false → bit v 2 = false → Completes (.ptpTx p a v) s (fun t => s.keeps t ∧
            t.dev.rb (rEthPtptxcmd p) 0 = true ∧ t.dev.out = d.out))))
      ∧ (d.inService = true → cfg.mode ≠ 0 → d.rb (rEthPtptxcmd p) 0 = false → Completes (.ethLinkUp p) s (fun t => s.keeps t ∧
        t.dev.rb (rEthStatus p) 7 = true ∧ t.dev.rf (rEthStatus p) 12 4 = (if cfg.mode ≤ 3 then 15 else if cfg.mode = 4 then 3 else 1)
        ∧ t.dev.hears p = true ∧ t.dev.rf (rEthStatus p) 0 3 = d.rf (rEthStatus p) 0 3))
      ∧ (cfg.mode = 0 → exec (.ethLinkUp p) s = .next s)
      ∧ Completes (.ethLinkDown p false) s (fun t => s.keeps t ∧ t.dev.reg (rEthStatus p) = d.reg (rEthStatus p) &&& 7#64 ∧ t.dev.hears p = false
        ∧ ∀ r, r ≠ rEthStatus p → t.dev.reg r = d.reg r)
      ∧ Completes (.ethLinkDown p true) s (fun t => s.keeps t ∧ ∀ q, q < 8 → t.dev.reg (rEthStatus q) = d.reg (rEthStatus q) &&& 7#64))
    ∧ (o < 65536 → d.sidebandUp = true →
      ((o / 4096 = 9 ∨ o / 4096 = 10 ∨ o / 4096 = 12) → (placeOf o).reg = o → (placeOf o).window = false → o ≠ rSbxRng → o ≠ rClkTod →
        exec (.sidebandRead o) s = .next (s.withDev { d with out := d.out ++ [.sideband (leBytes 8 (d.liveValue o).toNat)] }))
      ∧ ((o / 4096 ≠ 9 ∧ o / 4096 ≠ 10 ∧ o / 4096 ≠ 12 ∨ o % 8 ≠ 0) →
        exec (.sidebandRead o) s = .next (s.withDev { d with out := d.out ++ [.sideband (List.replicate 8 0xFF#8)] })))
    ∧ (o < 65536 → d.sidebandUp = false → exec (.sidebandRead o) s = .next s)
    ∧ (d.box.power = .on → d.gated = [] → exec .sidebandStatus s = .next (s.withDev { d with out := d.out ++ [.sideband (leBytes 4
      (d.phase + low16 (d.box.hot / 8) % 256 * 256 + (d.rb rPwrStatus 2).toNat * 2 ^ 16 + d.alert.toNat * 2 ^ 18))] }))
    ∧ (d.box.resetN = false → exec (.extest cells) s = .next (s.withDev { d with box := { d.box with scan := some cells } }))
    ∧ (d.box.resetN = true → exec (.extest cells) s = .next s)
    ∧ (d.box.power = .on → exec .ppsInEdge s = .next (s.withDev (d.setReg rSbxPpsin (word d.now))))
    ∧ (d.inService = true → exec .ppsOutEdge s = .next (s.withDev { d with out := d.out ++ [.pin "1PPS_OUT" 1] }))
    ∧ (d.inService = false → exec .ppsOutEdge s = .next s)
end

