-- ==== Sys2Proof/Laws/Memory.lean ====
section
/-! SUPPORT. The memories: every memory operation keeps their canonical form, and what a read of one byte gives after each. -/
namespace Sys2Proof.Machine

open Sys2Proof

/-- The memories of a device are in canonical form. -/
def Dev.memOk (d : Dev) : Prop := d.mem.wf = true ∧ d.trg.replay.mem.wf = true

theorem State.memoryWf_iff (s : State) : s.memoryWf = true ↔ s.dev.memOk := by simp [State.memoryWf, Dev.memOk]

theorem Mem.wf_iff (m : Mem) : m.wf = true ↔ SMap.wf byteDefault m.bytes = true ∧ SMap.wf markDefault m.marks = true
    ∧ SMap.wf (fun _ => ([] : List Nat)) m.hbmUpset = true ∧ SMap.wf (fun _ => ([] : List Nat)) m.sramUpset = true := by
  simp [Mem.wf, and_assoc]

theorem Dev.reset_memOk : Dev.reset.memOk := ⟨rfl, rfl⟩

/-- A device with the same memories. -/
theorem Dev.memOk_of_eq {d e : Dev} (h : d.memOk) (hm : e.mem = d.mem) (hr : e.trg.replay.mem = d.trg.replay.mem) : e.memOk := by
  unfold Dev.memOk; rw [hm, hr]; exact h

/-- What each step of a fold keeps, the fold keeps. -/
theorem foldl_keeps {α β : Type} (P : α → Prop) (f : α → β → α) (h : ∀ a b, P a → P (f a b)) (l : List β) (a : α) (ha : P a) : P (l.foldl f a) := by
  induction l generalizing a with
  | nil => exact ha
  | cons b l ih => exact ih _ (h a b ha)

/-- What no step of a fold changes, the fold does not change. -/
theorem foldl_same {α β γ : Type} (g : α → γ) (f : α → β → α) (h : ∀ a b, g (f a b) = g a) (l : List β) (a : α) : g (l.foldl f a) = g a :=
  foldl_keeps (fun x => g x = g a) f (fun _ _ hx => (h _ _).trans hx) l a rfl

/-! ### Canonical form -/

theorem Dev.memOk_setByte {d : Dev} (h : d.memOk) (a : Nat) (v : Byte) : (d.setByte a v).memOk := by
  have := (Mem.wf_iff _).1 h.1
  exact ⟨(Mem.wf_iff _).2 ⟨SMap.wf_set _ _ _ _ this.1, this.2⟩, h.2⟩
theorem Dev.memOk_setMark {d : Dev} (h : d.memOk) (q : Nat) (v : Bool) : (d.setMark q v).memOk := by
  have := (Mem.wf_iff _).1 h.1
  exact ⟨(Mem.wf_iff _).2 ⟨this.1, SMap.wf_set _ _ _ _ this.2.1, this.2.2⟩, h.2⟩
theorem Dev.memOk_setHbmUps {d : Dev} (h : d.memOk) (l : Nat) (u : List Nat) : (d.setHbmUps l u).memOk := by
  have := (Mem.wf_iff _).1 h.1
  exact ⟨(Mem.wf_iff _).2 ⟨this.1, this.2.1, SMap.wf_set _ _ _ _ this.2.2.1, this.2.2.2⟩, h.2⟩
theorem Dev.memOk_setSramUps {d : Dev} (h : d.memOk) (w : Nat) (u : List Nat) : (d.setSramUps w u).memOk := by
  have := (Mem.wf_iff _).1 h.1
  exact ⟨(Mem.wf_iff _).2 ⟨this.1, this.2.1, this.2.2.1, SMap.wf_set _ _ _ _ this.2.2.2⟩, h.2⟩

theorem Dev.memOk_setReg {d : Dev} (h : d.memOk) (o : Nat) (v : Word) : (d.setReg o v).memOk := h
theorem Dev.memOk_setRf {d : Dev} (h : d.memOk) (o lo n v : Nat) : (d.setRf o lo n v).memOk := h
theorem Dev.memOk_setRb {d : Dev} (h : d.memOk) (o i : Nat) (b : Bool) : (d.setRb o i b).memOk := h
theorem Dev.memOk_count {d : Dev} (h : d.memOk) (o lo n k : Nat) : (d.count o lo n k).memOk := h
theorem Dev.memOk_setThread {d : Dev} (h : d.memOk) (g : Nat) (t : Thread) : (d.setThread g t).memOk := h
theorem Dev.memOk_setCluster {d : Dev} (h : d.memOk) (c : Nat) (x : Cluster) : (d.setCluster c x).memOk := h
theorem Dev.memOk_setShare {d : Dev} (h : d.memOk) (c : Nat) (x : Share) : (d.setShare c x).memOk := h
theorem Dev.memOk_setRpt {d : Dev} (h : d.memOk) (i : Nat) (e : RptEntry) : (d.setRpt i e).memOk := h
theorem Dev.memOk_rptForget {d : Dev} (h : d.memOk) (a : Nat) : (d.rptForget a).memOk := h

theorem Dev.memOk_capture {d : Dev} (h : d.memOk) (c kind loc sub addr : Nat) (p : List Byte) : (d.capture c kind loc sub addr p).memOk := by
  unfold Dev.capture; split <;> exact h
theorem Dev.memOk_undo {d : Dev} (h : d.memOk) (c a : Nat) (old : List PByte) : (d.undo c a old).memOk := by
  unfold Dev.undo; split
  · exact Dev.memOk_setShare (Dev.memOk_capture h _ _ _ _ _ _) _ _
  · exact h
theorem Dev.memOk_undoStore {d : Dev} (h : d.memOk) (a n : Nat) : (d.undoStore a n).memOk := by
  unfold Dev.undoStore; split
  · exact foldl_keeps Dev.memOk _ (fun _ _ hd => Dev.memOk_undo hd _ _ _) _ _ h
  · exact h
theorem Dev.memOk_trigger {d : Dev} (h : d.memOk) (code c l tag : Nat) : (d.trigger code c l tag).memOk := by
  unfold Dev.trigger; dsimp only; repeat' split
  all_goals exact h
theorem Dev.memOk_ueLog {d : Dev} (h : d.memOk) (src die a : Nat) : (d.ueLog src die a).memOk := by
  unfold Dev.ueLog; split
  · exact Dev.memOk_setReg h _ _
  · exact h
theorem Dev.memOk_countUe {d : Dev} (h : d.memOk) (src a : Nat) : (d.countUe src a).memOk := by
  unfold Dev.countUe
  exact Dev.memOk_count (Dev.memOk_setRb (Dev.memOk_ueLog h src 15 a) rMicStatus 2 true) rMicStatus 24 16 1
theorem Dev.memOk_agentPoison {d : Dev} (h : d.memOk) (a : Nat) : (d.agentPoison a).memOk :=
  Dev.memOk_trigger (Dev.memOk_setRb (Dev.memOk_ueLog h 3 15 a) _ _ _) _ _ _ _
theorem Dev.memOk_rptReport {d : Dev} (h : d.memOk) (i : Nat) : (d.rptReport i).memOk := by
  unfold Dev.rptReport; dsimp only; split <;> exact h
theorem Dev.memOk_recordCe {d : Dev} (h : d.memOk) (a die : Nat) : (d.recordCe a die).memOk := by
  unfold Dev.recordCe; dsimp only; split
  · exact Dev.memOk_rptReport (by exact h) _
  · split
    · exact Dev.memOk_rptReport (by exact h) _
    · exact h

theorem Dev.memOk_hbmRead {d : Dev} (h : d.memOk) (l : Nat) (scrub : Bool) : (d.hbmRead l scrub).memOk := by
  unfold Dev.hbmRead; dsimp only; split
  · exact h
  · exact Dev.memOk_recordCe (by exact h) _ _
  · exact h
  · exact Dev.memOk_recordCe (by exact h) _ _
  · exact Dev.memOk_countUe (by exact h) _ _
theorem Dev.memOk_notePoison {d : Dev} (h : d.memOk) (w : Nat) : (d.notePoison w).memOk := by
  unfold Dev.notePoison; split
  · exact Dev.memOk_capture h _ _ _ _ _ _
  · exact h
theorem Dev.memOk_sramRead {d : Dev} (h : d.memOk) (w : Nat) (scrub : Bool) : (d.sramRead w scrub).memOk := by
  unfold Dev.sramRead
  have step : ∀ e : Dev, e.memOk → (match sramDecode (e.sramUps w) (e.markOf (w / 8)) with
      | .corrected die => e.recordCe w die
      | .uncorrectable => e.countUe (if scrub then 2 else 1) w
      | _ => e).memOk := by
    intro e he; split
    · exact Dev.memOk_recordCe he _ _
    · exact Dev.memOk_countUe he _ _
    · exact he
  split
  · exact step _ (Dev.memOk_notePoison h w)
  · exact step _ h
theorem Dev.memOk_agentRead {d : Dev} (h : d.memOk) (a n : Nat) : (d.agentRead a n).memOk := by
  unfold Dev.agentRead; split
  · exact h
  · refine foldl_keeps Dev.memOk _ (fun e i he => ?_) _ _ h
    split
    · exact he
    · exact Dev.memOk_hbmRead he _ _
theorem Dev.memOk_noteRead {d : Dev} (h : d.memOk) (a n : Nat) : (d.noteRead a n).memOk := by
  unfold Dev.noteRead; split
  · exact Dev.memOk_agentRead h a n
  · split
    · exact h
    · exact foldl_keeps Dev.memOk _ (fun _ _ he => Dev.memOk_sramRead he _ _) _ _ h
theorem Dev.memOk_mistakeWord {d : Dev} (h : d.memOk) (w : Nat) : (d.mistakeWord w).memOk := by
  unfold Dev.mistakeWord; dsimp only; split
  · exact h
  · exact foldl_keeps Dev.memOk _ (fun _ _ he => Dev.memOk_setByte he _ _) _ _ h
theorem Dev.memOk_addUpset {d : Dev} (h : d.memOk) (u : Upset) : (d.addUpset u).memOk := by
  unfold Dev.addUpset; dsimp only; repeat' split
  · exact Dev.memOk_setHbmUps h _ _
  · exact h
  · exact Dev.memOk_mistakeWord (Dev.memOk_setSramUps h _ _) _
  · exact h
theorem Dev.memOk_addUpsets {d : Dev} (h : d.memOk) (us : List Upset) : (d.addUpsets us).memOk :=
  foldl_keeps Dev.memOk _ (fun _ _ he => Dev.memOk_addUpset he _) us d h

theorem Dev.memOk_healLine {d : Dev} (h : d.memOk) (l : Nat) (whole : Bool) : (d.healLine l whole).memOk := by
  unfold Dev.healLine; split
  · exact h
  · refine Dev.memOk_rptForget (Dev.memOk_setHbmUps ?_ _ _) _
    split
    · exact foldl_keeps Dev.memOk _ (fun _ _ he => Dev.memOk_setMark he _ _) _ _ (Dev.memOk_countUe (by exact h) _ _)
    · exact h
theorem Dev.memOk_healWord {d : Dev} (h : d.memOk) (w : Nat) (whole : Bool) : (d.healWord w whole).memOk := by
  unfold Dev.healWord; split
  · exact h
  · refine Dev.memOk_rptForget (Dev.memOk_setSramUps ?_ _ _) _
    split
    · exact Dev.memOk_setMark (Dev.memOk_countUe h _ _) _ _
    · exact h
theorem Dev.memOk_markGranule {d : Dev} (h : d.memOk) (q a : Nat) (bs : List PByte) : (d.markGranule q a bs).memOk := by
  unfold Dev.markGranule; dsimp only; repeat' split
  · exact Dev.memOk_setMark h _ _
  · exact Dev.memOk_setMark h _ _
  · exact h
theorem Dev.memOk_pokeBytes {d : Dev} (h : d.memOk) (a : Nat) (bs : List PByte) : (d.pokeBytes a bs).memOk := by
  induction bs generalizing d a with
  | nil => exact h
  | cons b bs ih => exact ih (Dev.memOk_setByte h a b.val) (a + 1)

/-- A write of consecutive bytes keeps the canonical form. -/
theorem Dev.memOk_writeBytes {d : Dev} (h : d.memOk) (a : Nat) (bs : List PByte) : (d.writeBytes a bs).memOk := by
  unfold Dev.writeBytes; split
  · exact h
  · refine Dev.memOk_pokeBytes (foldl_keeps Dev.memOk _ (fun _ _ he => Dev.memOk_markGranule he _ _ _) _ _ ?_) _ _
    have hu := Dev.memOk_undoStore h a bs.length
    split
    · refine foldl_keeps Dev.memOk _ (fun e i he => ?_) _ _ hu
      dsimp only; split
      · exact he
      · exact Dev.memOk_count (Dev.memOk_healLine he _ _) _ _ _ _
    · exact foldl_keeps Dev.memOk _ (fun _ _ he => Dev.memOk_healWord he _ _) _ _ hu

theorem Dev.memOk_zeroRange {d : Dev} (h : d.memOk) (a b : Nat) : (d.zeroRange a b).memOk := by
  have := (Mem.wf_iff _).1 h.1
  exact ⟨(Mem.wf_iff _).2 ⟨SMap.wf_filter _ _ _ this.1, SMap.wf_filter _ _ _ this.2.1, this.2.2.1, SMap.wf_filter _ _ _ this.2.2.2⟩, h.2⟩
theorem Dev.memOk_pokeLine {d : Dev} (h : d.memOk) (l : Nat) (bs : List PByte) : (d.pokeLine l bs).memOk :=
  Dev.memOk_pokeBytes (foldl_keeps Dev.memOk _ (fun _ _ he => Dev.memOk_setMark he _ _) _ _ h) _ _
theorem Dev.memOk_revertDirty {d : Dev} (h : d.memOk) : d.revertDirty.memOk := by
  refine foldl_keeps Dev.memOk _ (fun e p he => foldl_keeps Dev.memOk _ (fun e x he => ?_) _ _ he) _ _ h
  split
  · exact Dev.memOk_pokeLine he _ _
  · exact he
theorem Mem.wf_hbmOnly {m : Mem} (h : m.wf = true) : m.hbmOnly.wf = true := by
  have := (Mem.wf_iff _).1 h
  exact (Mem.wf_iff _).2 ⟨SMap.wf_filter _ _ _ this.1, SMap.wf_filter _ _ _ this.2.1, this.2.2.1, rfl⟩
theorem Dev.memOk_writeBack {d : Dev} (h : d.memOk) (x : CLine) : (d.writeBack x).memOk := by
  unfold Dev.writeBack; split
  · exact Dev.memOk_count (Dev.memOk_healLine h _ _) _ _ _ _
  · exact h

/-! ### What a byte reads after a write -/

theorem Dev.byteAt_pokeBytes (d : Dev) (a b : Nat) (bs : List PByte) :
    (d.pokeBytes a bs).byteAt b = if a ≤ b then ((bs[b - a]?).map PByte.val).getD (d.byteAt b) else d.byteAt b := by
  induction bs generalizing d a with
  | nil => simp [Dev.pokeBytes]
  | cons x bs ih =>
    simp only [Dev.pokeBytes, ih, Dev.byteAt_setByte]
    by_cases h1 : a + 1 ≤ b
    · have h2 : b ≠ a := by omega
      have h3 : a ≤ b := by omega
      have h4 : b - a = (b - (a + 1)) + 1 := by omega
      simp [h1, h2, h3, h4]
    · by_cases h2 : b = a
      · subst h2; simp [h1]
      · have h3 : ¬ a ≤ b := by omega
        simp [h1, h2, h3]

theorem Dev.bytes_capture (d : Dev) (c kind loc sub addr : Nat) (p : List Byte) : (d.capture c kind loc sub addr p).mem = d.mem := by
  unfold Dev.capture; split <;> rfl
theorem Dev.mem_undo (d : Dev) (c a : Nat) (old : List PByte) : (d.undo c a old).mem = d.mem := by
  unfold Dev.undo; split
  · exact Dev.bytes_capture _ _ _ _ _ _ _
  · rfl
theorem Dev.mem_undoStore (d : Dev) (a n : Nat) : (d.undoStore a n).mem = d.mem := by
  unfold Dev.undoStore; split
  · exact foldl_same Dev.mem _ (fun _ _ => Dev.mem_undo _ _ _ _) _ _
  · rfl
theorem Dev.mem_ueLog (d : Dev) (src die a : Nat) : (d.ueLog src die a).mem = d.mem := by
  unfold Dev.ueLog; split
  · exact Dev.setReg_mem _ _ _
  · rfl
theorem Dev.mem_countUe (d : Dev) (src a : Nat) : (d.countUe src a).mem = d.mem := by
  unfold Dev.countUe
  rw [show ∀ (e : Dev) (o lo n k : Nat), (e.count o lo n k).mem = e.mem from fun _ _ _ _ _ => rfl, Dev.setRb_mem, Dev.mem_ueLog]
theorem Dev.bytes_healLine (d : Dev) (l : Nat) (whole : Bool) : (d.healLine l whole).mem.bytes = d.mem.bytes := by
  unfold Dev.healLine; split
  · rfl
  · dsimp only [Dev.rptForget, Dev.setHbmUps]; split
    · refine (foldl_same (fun e : Dev => e.mem.bytes) (fun (d : Dev) i => d.setMark (8 * l + i) true) (fun _ _ => rfl) _ _).trans ?_
      rw [Dev.mem_countUe]; rfl
    · rfl
theorem Dev.bytes_healWord (d : Dev) (w : Nat) (whole : Bool) : (d.healWord w whole).mem.bytes = d.mem.bytes := by
  unfold Dev.healWord; split
  · rfl
  · dsimp only [Dev.rptForget, Dev.setSramUps]; split
    · show (d.countUe 1 w).mem.bytes = _; rw [Dev.mem_countUe]
    · rfl
theorem Dev.bytes_markGranule (d : Dev) (q a : Nat) (bs : List PByte) : (d.markGranule q a bs).mem.bytes = d.mem.bytes := by
  unfold Dev.markGranule; dsimp only; repeat' split
  all_goals rfl

/-- A write changes the bytes it names and no other. -/
theorem Dev.byteAt_writeBytes (d : Dev) (a b : Nat) (bs : List PByte) :
    (d.writeBytes a bs).byteAt b = if a ≤ b then ((bs[b - a]?).map PByte.val).getD (d.byteAt b) else d.byteAt b := by
  unfold Dev.writeBytes; split
  · next h => rw [List.length_eq_zero_iff.1 h]; simp
  · rw [Dev.byteAt_pokeBytes]
    have key : ∀ e : Dev, e.mem.bytes = d.mem.bytes → e.byteAt b = d.byteAt b := fun e he => by unfold Dev.byteAt; rw [he]
    rw [key]
    rw [foldl_same (fun e : Dev => e.mem.bytes) _ (fun _ _ => Dev.bytes_markGranule _ _ _ _)]
    split
    · rw [foldl_same (fun e : Dev => e.mem.bytes) _ (fun e i => ?_), Dev.mem_undoStore]
      dsimp only; split
      · rfl
      · exact Dev.bytes_healLine e _ _
    · rw [foldl_same (fun e : Dev => e.mem.bytes) _ (fun e i => Dev.bytes_healWord e _ _), Dev.mem_undoStore]
theorem Dev.byteAt_writeBytes_outside (d : Dev) (a b : Nat) (bs : List PByte) (h : b < a ∨ a + bs.length ≤ b) : (d.writeBytes a bs).byteAt b = d.byteAt b := by
  rw [Dev.byteAt_writeBytes]
  split
  · rw [List.getElem?_eq_none (by omega)]; rfl
  · rfl

end Sys2Proof.Machine
end

