-- ==== Sys2Proof/Laws/Ops.lean ====
section
/-! SUPPORT. What the shared operations of the commands can do: a command about a unit, and an instruction of a thread. -/
namespace Sys2Proof.Machine

open Sys2Proof

theorem onDev_eq (s : State) (f : Dev → Dev) : onDev s f = .next { s with dev := f s.dev } := rfl
/-- A command about a unit: it completes where the device has the unit, with the queue as it was, and otherwise is the fault `noSuchUnit`. -/
theorem onUnit_cases (ok : Bool) (s : State) (f : Dev → Dev) :
    (ok = true ∧ onUnit ok s f = .next { s with dev := f s.dev }) ∨ (ok = false ∧ onUnit ok s f = .fault .noSuchUnit) := by
  cases ok
  · exact .inr ⟨rfl, rfl⟩
  · exact .inl ⟨rfl, rfl⟩
/-- A command of a thread completes where the device has the thread. -/
theorem threadEvent_next (g : Nat) (s : State) (f : Nat → Dev → Dev) (h : g < Config.threads) :
    threadEvent g s f = .next { s with dev := s.dev.onThread g f } := by
  unfold threadEvent onUnit; simp [h, onDev]
theorem runThread_next (g : Nat) (s : State) (regs : List GReg) (fl : Bool) (body : Ctx → Run Out) (h : g < Config.threads) :
    runThread g s regs fl body = .next { s with dev := s.dev.onThread g (fun g d => d.instr g regs fl body) } := threadEvent_next g s _ h

/-! An instruction of a thread, by how it ends (R125): it does not issue, it waits, it completes, it transfers control, it stays, or it takes an exception. -/

theorem Dev.instr_idle (d : Dev) (g : Nat) (regs : List GReg) (fl : Bool) (body : Ctx → Run Out) (h : d.issuable g regs fl = false) :
    d.instr g regs fl body = d := by simp [Dev.instr, h]
theorem Dev.instr_wait (d : Dev) (g : Nat) (regs : List GReg) (fl : Bool) (body : Ctx → Run Out) (hb : body (d.freshCtx g) = .error .wait) :
    d.instr g regs fl body = d := by unfold Dev.instr; rw [hb]; simp [finish]
theorem Dev.instr_seq (d : Dev) (g : Nat) (regs : List GReg) (fl : Bool) (body : Ctx → Run Out) {c : Ctx} {n : Nat}
    (h : d.issuable g regs fl = true) (hb : body (d.freshCtx g) = .ok (.seq c n)) :
    d.instr g regs fl body = (c.withT (c.t.retire (c.t.pc + word n))).commit := by simp [Dev.instr, h, hb, finish]
theorem Dev.instr_jump (d : Dev) (g : Nat) (regs : List GReg) (fl : Bool) (body : Ctx → Run Out) {c : Ctx} {target : Word}
    (h : d.issuable g regs fl = true) (hb : body (d.freshCtx g) = .ok (.jump c target false)) :
    d.instr g regs fl body = (c.withT (c.t.retireTo target)).commit := by simp [Dev.instr, h, hb, finish, Ctx.withD]
theorem Dev.instr_branch (d : Dev) (g : Nat) (regs : List GReg) (fl : Bool) (body : Ctx → Run Out) {c : Ctx} {target : Word}
    (h : d.issuable g regs fl = true) (hb : body (d.freshCtx g) = .ok (.jump c target true)) :
    d.instr g regs fl body = ((c.withD (c.d.btbNote (coreOf c.g) c.t.pc.toNat target.toNat)).withT (c.t.retireTo target)).commit := by
  simp [Dev.instr, h, hb, finish, Ctx.withD, Ctx.withT]
theorem Dev.instr_stay (d : Dev) (g : Nat) (regs : List GReg) (fl : Bool) (body : Ctx → Run Out) {c : Ctx}
    (h : d.issuable g regs fl = true) (hb : body (d.freshCtx g) = .ok (.stay c)) : d.instr g regs fl body = c.commit := by simp [Dev.instr, h, hb, finish]
theorem Dev.instr_exc (d : Dev) (g : Nat) (regs : List GReg) (fl : Bool) (body : Ctx → Run Out) {c : Ctx} {e : Exc}
    (h : d.issuable g regs fl = true) (hb : body (d.freshCtx g) = .error (.exc c e)) :
    d.instr g regs fl body = if c.t.entryReady then (Option.map Ctx.commit (takeExc c e)).getD d else d := by simp [Dev.instr, h, hb, finish]

end Sys2Proof.Machine
end

