-- ==== Sys2Proof/Tests/Slice0.lean ====
section
/-! SUPPORT. Tests: ill-formed commands are refused, concrete states and operands that meet the hypotheses of every statement (`witness_`), and a
few results that the spec's own tables and examples give (`test_`). -/
namespace Sys2Proof.Tests

set_option Elab.async false

open Sys2Proof Sys2Proof.Machine

/-- A device in service (phase 6), cluster 0 released, with 2 MiB of scratch and 1,980 sets of cache. -/
def dev0 : Dev :=
  let d := { Dev.reset with clu := [(0, { Cluster.reset with released := true })], box := { SigBox.reset with power := .on } }
  ((d.setRf rSbxStart 36 4 6).setRf (rClSplit 0) 0 6 32).setRf (rClSplit 0) 8 14 1980

/-- Threads of cluster 0 that run: at supervisor level of the Up world, and at user level. -/
def sup0 : Thread := { Thread.reset with run := .running, pc := 0x500000000400, ts := 1 }
def user0 : Thread := { sup0 with ts := 4 }

/-- The device with thread 0 as given, and no command waiting. -/
def at0 (t : Thread) (d : Dev := dev0) : State := ⟨d.setThread 0 t, []⟩

/-! ### WellFormed: one ill-formed term for each check -/

theorem test_wf_thread : (Instr.add 3072 1 2 3).wellFormed = false ∧ (Instr.add 3071 1 2 3).wellFormed = true := by decide
theorem test_wf_agent : (Instr.snpGo (.thread 3072)).wellFormed = false ∧ (Instr.snpGo .sideband).wellFormed = true := by decide
theorem test_wf_journalQueue : (Instr.journalQueueDelivery 4183).wellFormed = false ∧ (Instr.journalQueueDelivery 4184).wellFormed = true
    ∧ (Instr.journalQueueDelivery 6272).wellFormed = false := by decide
theorem test_wf_numbers : (Instr.interruptPending 4096).wellFormed = false ∧ (Instr.checkpoint 32).wellFormed = false
    ∧ (Instr.moveComplete 65536).wellFormed = false ∧ (Instr.pcieLinkUp 2).wellFormed = false ∧ (Instr.perstN 2).wellFormed = false
    ∧ (Instr.timerExpiry 128).wellFormed = false ∧ (Instr.dozeEntry 384).wellFormed = false ∧ (Instr.portTrained true 5).wellFormed = false
    ∧ (Instr.coldStart 4).wellFormed = false ∧ (Instr.sidebandRead 65536).wellFormed = false ∧ (Instr.cautionEntry 8 0).wellFormed = false
    ∧ (Instr.thermalSensorRead []).wellFormed = false ∧ (Instr.functionLevelReset 0 (.vf 33)).wellFormed = false
    ∧ (Instr.queueDoorbell 0 33 0 0).wellFormed = false ∧ (Instr.submitEntryTake 0 0 16 [] []).wellFormed = false := by decide
theorem test_ill_formed_stops : exec (.add 3072 1 2 3) State.reset = .fault .noSuchUnit := rfl

/-! ### The step, the queue and reset -/

theorem witness_StepRunsFrontCommand : step { State.reset with pending := [.hint 0 0] } = exec (.hint 0 0) State.reset := rfl
theorem witness_EmptyQueueMovesOnlyClocks : State.reset.pending = [] ∧ State.reset.dev.box.power ≠ .on ∧ (at0 sup0).pending = []
    ∧ (at0 sup0).dev.box.power = .on := by decide
theorem witness_WellFormedCommandsComplete : (Instr.hint 3071 0).wellFormed = true ∧ (Instr.hint 3072 0).wellFormed = false := by decide
theorem witness_QueueRunsToItsEnd : State.queueWf { State.reset with pending := [.hint 3071 0, .moveComplete 65535, .epochBoundary] } = true := by decide
theorem witness_MemoryStaysCanonical : State.reset.memoryWf = true ∧ ∃ t, step { State.reset with pending := [.hint 0 0] } = .next t := ⟨rfl, _, rfl⟩

/-! ### Decoding: words that the spec's own examples write out -/

/-- The worked decoding of chapter 8 (Worked decoding): what each word spells, and the ILLEGAL detail of the others. -/
theorem test_decode_worked :
    decodeTableWord 32 0x823FFFFD = some (.bc 0 8 0x3FFFFD) ∧ decodeTableWord 32 0x4202C010 = some (.ld 0 16 2 3 false 0x10 [])
    ∧ decodeTableWord 64 0xD26000C2AC000000 = some (.rep 0 0 0xD26000C2 1) ∧ decodeTableWord 32 0xFBFFFFFF = some (.hint 0 0x3FFFFFF)
    ∧ illegalOf true 0 0 = some 0x0001 ∧ illegalOf true 0x80000010 0 = some 0x2004 ∧ illegalOf true 0x8B800007 0 = some 0x2202
    ∧ illegalOf true 0x4202D010 0 = some 0x1002 ∧ illegalOf true 0xAC000000 0xC4200000 = some 0x7103
    ∧ illegalOf true 0xAC000001 0xC4200000 = some 0x2B02 ∧ decodeTableWord 32 0x8B800007 = none ∧ decodeTableWord 16 0x0001 = none := by decide +kernel
/-- DIV (R223), ADDI, ACAS (R258), MTS and LOOP (R156). -/
theorem test_decode_integer :
    decodeTableWord 32 0x0623248F = some (.div 0 17 3 4 18) ∧ decodeTableWord 32 0x08A00001 = some (.addi 0 5 0 1)
    ∧ decodeTableWord 32 0x4A8329B2 = some (.acas 0 20 3 5 6 3) ∧ decodeTableWord 32 0xA4A00083 = some (.mts 0 5 2)
    ∧ decodeTableWord 32 0xA8C0000B = some (.loop 0 6 11) := by decide +kernel
/-- The system group (R261) and POST (R262). -/
theorem test_decode_system :
    decodeTableWord 32 0xB0000000 = some (.scall 0) ∧ decodeTableWord 32 0xB0000001 = some (.sret 0) ∧ decodeTableWord 32 0xB0000002 = some (.retx 0)
    ∧ decodeTableWord 32 0xB0000003 = some (.fence 0) ∧ decodeTableWord 32 0xB0000004 = some (.release 0) ∧ decodeTableWord 32 0xB0000005 = some (.trig 0 0)
    ∧ decodeTableWord 32 0xB0000006 = some (.brk 0 0) ∧ decodeTableWord 32 0xF8000000 = some (.hint 0 0)
    ∧ decodeTableWord 32 0xDB0AA984 = some (.post 0 24 10 21 6 0 true) := by decide +kernel
/-- The decimal example of chapter 5, and EDIT (R196) and STE of chapter 6. -/
theorem test_decode_decimal_strings :
    decodeTableWord 32 0xC8043040 = some (.dlda 0 0 2 3 0x40) ∧ decodeTableWord 32 0xC8862008 = some (.dlda 0 1 3 2 8)
    ∧ decodeTableWord 32 0xC4100002 = some (.dmul 0 (.acc 0 1)) ∧ decodeTableWord 32 0xC401F506 = some (.dshf 0 0 0x7D 1)
    ∧ decodeTableWord 32 0xC4200000 = some (.dadd 0 (.acc 0 2)) ∧ decodeTableWord 64 0x0000004BCC221905 = some (.edit 0 1 2 3 4 0x4B 1)
    ∧ decodeTableWord 32 0xD26000C2 = some (.ste 0 19 0 3) := by decide +kernel
/-- The floating example of chapter 7. -/
theorem test_decode_floating :
    decodeTableWord 32 0xF0810FFD = some (.fldp 0 2 false 2 3 0x3FD) ∧ decodeTableWord 32 0xE908C202 = some (.fmul 0 2 4 2 3)
    ∧ decodeTableWord 32 0xF1223FFC = some (.fstp 0 4 false 4 15 0x3FC) ∧ decodeTableWord 32 0xEC000004 = some (.fbar 0) := by decide +kernel

/-! ### Threads and integers -/

theorem witness_GeneralRegistersResolve :
    (7#5).toNat < 8 ∧ user0.sup = false ∧ sup0.sup = true ∧ user0.wsel < 12 ∧ 8 ≤ (8#5).toNat ∧ (23#5).toNat < 24
    ∧ sup0.world ≠ ({ sup0 with ts := 3 } : Thread).world ∧ ({ sup0 with ts := 3 } : Thread).sup = true
    ∧ ({ user0 with wsel := 11 } : Thread).wsel < 12 ∧ user0.wsel = (({ user0 with wsel := 11 } : Thread).wsel + 1) % 12
    ∧ user0.wsel ≠ ({ user0 with wsel := 11 } : Thread).wsel ∧ user0.phys 31 ≠ 0 ∧ user0.phys 30 ≠ user0.phys 31 := by decide

/-- X2 = 5, X3 = 3, X4 marked. -/
def ints : Thread := ((sup0.put 2 5).put 3 3).setGreg 4 ⟨9, true⟩

theorem witness_integers : (at0 ints).ready 0 [1, 2, 3, 31] true = true ∧ (at0 ints).ready 0 [2] false = true ∧ ints.greg 2 = ⟨5, false⟩
    ∧ ints.greg 3 = ⟨3, false⟩ ∧ ints.fl.poison = false ∧ (0#2 = 0 ∧ 1#2 = 1 ∧ 2#2 = 2) := by decide
/-- DIV's cases: an ordinary one, by zero, and the most negative by minus one. -/
theorem witness_DivideGivesQuotientAndRemainder :
    let m := (ints.put 2 0x8000000000000000).put 3 (~~~0)
    (at0 ints).ready 0 [1, 2, 3, 31] true = true ∧ (1#5 ≠ 31#5) ∧ (0#5 = 0) ∧ ints.greg 0 = ⟨0, false⟩ ∧ (3 : Word) ≠ 0
    ∧ (at0 m).ready 0 [1, 2, 3, 31] true = true ∧ m.greg 2 = ⟨0x8000000000000000, false⟩ ∧ m.greg 3 = ⟨~~~0, false⟩ := by decide
theorem witness_PoisonedIntegerSourceMarksDestination : (at0 ints).ready 0 [1, 2, 4, 5] true = true ∧ (ints.greg 4).poison = true
    ∧ 1#5 ≠ 5#5 := by decide
theorem witness_BranchesFollowConditions : (at0 ints).ready 0 [] true = true ∧ (1#4 ≠ 0 ∧ 15#4 ≠ 0) ∧ ints.fl.poison = false
    ∧ (at0 ints).ready 0 [2] false = true := by decide
theorem witness_WindowCallsMoveTheWindow :
    let t := { user0 with wsel := 11, wd := 10 }
    let u := { user0 with wsel := 0, wd := 11 }
    (at0 t).ready 0 [31] false = true ∧ t.wd ≠ 11 ∧ (at0 t).ready 0 [2, 31] false = true ∧ t.greg 2 = ⟨0, false⟩
    ∧ (at0 u).ready 0 [] false = true ∧ u.wd ≠ 0 ∧ u.posts = [] ∧ u.physGet (8 + 8 * (2 * u.wsel % 24) + 7) = ⟨0, false⟩ := by decide
/-- A thread with a mode change pending, and with every count of instructions left. -/
def shady (n : Nat) : Thread := { sup0 with shadow := some ⟨0x40, n⟩ }
theorem witness_SpecialRegisters : (at0 ints).ready 0 [2] true = true ∧ (at0 ints).ready 0 [2] false = true ∧ ints.fl.poison = false
    ∧ ints.es.poison = false ∧ ints.fpOut = [] ∧ bit ints.fps 19 = false ∧ ints.shadow = none ∧ ints.sup = true ∧ ints.sefl.poison = false
    ∧ (at0 (shady 3)).ready 0 [2] false = true ∧ (shady 3).shadow = some ⟨0x40, 3⟩ ∧ ints.world = false
    ∧ ({ ints with ts := 3 } : Thread).world = true ∧ ({ ints with ts := 3 } : Thread).sup = true := by decide
theorem witness_ModeChangeTakesThreeInstructions : (at0 ints).ready 0 [2] false = true ∧ ints.sup = true ∧ ints.shadow = none
    ∧ fld (5 : Word) 0 7 ≠ fld ints.ts 0 7 ∧ (at0 (shady 1)).ready 0 [] false = true ∧ 0 < Config.threads
    ∧ (at0 (shady 0)).dev.replaying (clusterOf 0) = false ∧ (shady 0).shadow = some ⟨0x40, 0⟩ := by decide
/-- Three levels of loops, with their counts. -/
def loops (a b c : Word) (ts : Word := 0x8001) : Thread :=
  { ints with ts := ts, lp0 := ⟨0x500000000500, 0x500000000404, a, []⟩, lp1 := ⟨0x500000000600, 0x500000000404, b, []⟩, lp2 := ⟨0x500000000700, 0x500000000404, c, []⟩ }
theorem witness_LoopsRunInnermostFirst : (at0 (loops 1 1 0)).ready 0 [3] false = true ∧ (loops 1 1 0).greg 3 = ⟨3, false⟩
    ∧ (loops 1 1 0).greg 5 = ⟨0, false⟩ ∧ (loops 0 1 1).lp0.ln = 0 ∧ (loops 1 0 1).lp0.ln ≠ 0 ∧ (loops 1 0 1).lp1.ln = 0 ∧ (loops 1 1 0).lp2.ln = 0
    ∧ (loops 1 1 1 1).le = false ∧ (loops 0 0 0).le = true ∧ (loops 0 0 0).lp0.ln = 0 ∧ (loops 2 1 2).lp2.lb = (loops 2 1 2).pc + 4
    ∧ (loops 2 1 2).lp2.ln ≠ 1 ∧ (loops 2 2 1).lp2.ln = 1 ∧ (loops 2 2 1).lp1.ln ≠ 1 ∧ (loops 2 0 0).lp0.ln ≠ 1 ∧ (loops 0 0 1).lp1.ln = 0 := by decide

/-! ### Calls, entry and return -/

/-- SENTRY of both worlds open to the other: SWITCH (53) and PERMIT (54). -/
def callers (ts : Word) (e : Word) : Thread :=
  { sup0 with ts := ts, up := { sup0.up with sentry := e }, down := { sup0.down with sentry := e } }
theorem witness_SystemCallAndReturn : (at0 (callers 0 0)).ready 0 [] true = true ∧ (callers 0 0).posts = [] ∧ (callers 0 0).shadow = none
    ∧ (callers 0 0).sup = false ∧ bit (callers 0 0).up.sentry 53 = false ∧ bit (callers 0 (0x60000000000000)).up.sentry 53 = true
    ∧ bit (callers 0 (0x60000000000000)).down.sentry 54 = true ∧ (at0 (callers 1 0)).ready 0 [] true = true ∧ (callers 1 0).sup = true := by decide

/-- A thread with 4 KiB of stack below 0x400000009000, task-state blocks below 0x400000008000, and a table of descriptors at
0x400000004000 whose handlers stand in the code store. -/
def enterer : Thread :=
  { sup0 with up := { sentry := 0, edtb := 0x400000004000, tsbr := 0x400000008000 } }.setGreg 23 ⟨0x400000009000, false⟩
def tabled (l : List Nat) : Dev :=
  l.foldl (fun d v => d.pokeBytes (0x400000004000 + 32 * v)
    (clean (leBytes 8 (0x500000010000 + 64 * v) ++ leBytes 8 0 ++ leBytes 8 5 ++ leBytes 8 0))) dev0
theorem ok_of {ε α : Type} (x : Except ε α) (h : x.toBool = true) : ∃ e, x = .ok e := by
  cases x with
  | ok e => exact ⟨e, rfl⟩
  | error k => simp [Except.toBool] at h
theorem error_of {ε α : Type} (x : Except ε α) (h : x.toBool = false) : ∃ k, x = .error k := by
  cases x with
  | ok e => simp [Except.toBool] at h
  | error k => exact ⟨k, rfl⟩
theorem witness_EntrySavesAndSetsState :
    let c : Ctx := (at0 enterer (tabled [255])).dev.ctx 0
    c.t.shadow = none ∧ c.t.sb = [] ∧ ∃ e, tryEnter c 255 none 0 0 = .ok e := ⟨rfl, rfl, ok_of _ (by decide +kernel)⟩
theorem witness_EntrySavesAndSetsState_interrupt :
    let c : Ctx := (at0 enterer (tabled [64])).dev.ctx 0
    c.t.shadow = none ∧ c.t.sb = [] ∧ (⟨false, 64, 15⟩ : PendingIrq).prio < 16
      ∧ ∃ e, tryEnter c 64 (some ⟨false, 64, 15⟩) 0 0 = .ok e := ⟨rfl, rfl, by decide, ok_of _ (by decide +kernel)⟩
/-- Why an entry fails, where it does. -/
def lockOf (c : Ctx) : Option Lock := match tryEnter c 255 none 0 0 with | .error (.lock k) => some k | _ => none
/-- A table with no valid descriptor, before any lockup and with one recorded. -/
theorem witness_FailedEntryLocksUp :
    (lockOf ((at0 enterer).dev.ctx 0)).map (fun k => (k.cause, bit (k.d.reg (rClLock 0)) 31)) = some (3, false)
    ∧ (lockOf ((at0 enterer (dev0.setReg (rClLock 0) 0x80000000)).dev.ctx 0)).map (fun k => bit (k.d.reg (rClLock 0)) 31) = some true := by
  decide +kernel
theorem witness_ReturnRestoresTheBlock :
    let t := { enterer with up := { enterer.up with tsbr := 0x400000007E00 } }
    let s := at0 t
    s.ready 0 [] true = true ∧ t.shadow = none ∧ t.sup = true ∧ t.sb = [] ∧ t.posts = []
    ∧ s.dev.checkAccess ⟨0, false, true, 0⟩ .load 0x400000007E00 296 = none
    ∧ (∀ i, i < 296 → (s.dev.keyAddr 0x400000007E00 ≠ some (0x400000007E00 + i) ∧ s.dev.keyAddr (0x400000007E00 + 295) ≠ some (0x400000007E00 + i))
      ∧ (s.byte (0x400000007E00 + i)).poison = false)
    ∧ s.dev.readBytes (0x400000007E00 + 16) 8 = List.replicate 8 ⟨0, false⟩ ∧ bit t.xceil 1 = false := by decide +kernel
theorem witness_BreakFbarTrigAndHintComplete :
    let s := at0 enterer (tabled [9, 14])
    let p := { enterer with fps := 0x1F80000 }
    s.ready 0 [] false = true ∧ enterer.fpOut = [] ∧ enterer.posts = [] ∧ bit enterer.fps 19 = false
    ∧ (∃ e, tryEnter (s.dev.freshCtx 0) 14 none 0 0 = .ok e) ∧ bit p.fps 19 = true ∧ (at0 p (tabled [9])).ready 0 [] false = true
    ∧ ∃ e, tryEnter ⟨(at0 p (tabled [9])).dev, 0, { p with fps := p.fps &&& ~~~0x1F80000#64, mc := none }⟩ 9 none (word (fld p.fps 20 5)) 0 = .ok e :=
  ⟨by decide, rfl, rfl, rfl, ok_of _ (by decide +kernel), rfl, by decide, ok_of _ (by decide +kernel)⟩
/-- TRIG: capturing with TRIGMASK 4, and with it off. -/
theorem witness_trig :
    let d := (dev0.setRf rTrgStatus 0 3 1).setRb rTrgCtl 23 true
    (at0 sup0 d).ready 0 [] false = true ∧ (at0 sup0 d).dev.rf rTrgStatus 0 3 = 1 ∧ (at0 sup0 d).dev.rb rTrgCtl 23 = true
    ∧ (at0 sup0 d).dev.trg.pend = none ∧ (at0 sup0).dev.rb rTrgCtl 23 = false := by decide

/-! ### Memory -/

/-- Key bytes of the table: same world or not, key 0, equal, unequal, open or not. -/
theorem witness_StorageKeyTable :
    let w : Who := ⟨0, false, true, 0⟩
    let k : Who := ⟨0, false, false, 15⟩
    (((0x0C#8).getLsbD 3 == w.world) = false ∧ (0x0C#8).getLsbD 2 = true) ∧ (((0x08#8).getLsbD 3 == w.world) = false ∧ (0x08#8).getLsbD 2 = false)
    ∧ (((0xF0#8).getLsbD 3 == w.world) = true ∧ w.key = 0) ∧ (((0xF0#8).getLsbD 3 == k.world) = true ∧ k.key ≠ 0 ∧ (0xF0#8).toNat / 16 = k.key)
    ∧ ((0xE4#8).toNat / 16 ≠ k.key ∧ (0xE4#8).getLsbD 2 = true) ∧ ((0xE0#8).toNat / 16 ≠ k.key ∧ (0xE0#8).getLsbD 2 = false) := by decide

/-- X2 points into the scratch of cluster 0; 16 bytes stand there, and the second granule is marked. -/
def scr : Nat := 0x400000001000
def mem0 : Dev := (dev0.pokeBytes scr (clean [0x80, 1, 2, 3, 4, 5, 6, 0xF7, 8, 9, 10, 11, 12, 13, 14, 15])).setMark (scr / 8 + 1) true
def ptr0 : Thread := (sup0.put 2 (word scr)).put 3 0x1234

theorem witness_LoadsReadMemory :
    let s := at0 ptr0 mem0
    ptr0.greg 2 = ⟨word scr, false⟩ ∧ ptr0.noStoreIn scr 16 = true ∧ inControl scr 16 = false ∧ s.dev.checkAccess ⟨0, false, true, 0⟩ .load scr 16 = none
    ∧ s.ready 0 [1, 2] false = true ∧ s.ready 0 [2] false = true ∧ scr = (word scr + (0#12).signExtend 64).toNat
    ∧ scr - 2048 = (word scr + (2048#12).signExtend 64).toNat ∧ scr = (word scr + (0#14).signExtend 64).toNat
    ∧ 1 = 2 ^ (0#2).toNat ∧ 8 = 2 ^ (3#2).toNat ∧ (0#2) ≠ 3 ∧ 4 = 4 * 2 ^ (0#2).toNat ∧ 8 = 4 * 2 ^ (1#2).toNat ∧ (14#4).toNat % 2 = 0 := by decide +kernel
/-- X2 points at CFG_BWUP, which holds 5: one struck copy is repaired, two struck alike win the vote, three that differ hold the device (R410). -/
def crit0 : State := at0 (sup0.put 2 0xFF0000000020) (dev0.setReg rCfgBwup 5)
def struck (l : List Nat) : Dev :=
  match exec (.ld 0 1 2 3 false 0 (l.map (fun i => ⟨0xFF0000000020, i⟩))) crit0 with
  | .next t => t.dev
  | _ => Dev.reset
theorem witness_LoadsReadCriticalWords :
    crit0.ready 0 [1, 2] false = true ∧ crit0.dev.trg.replay.inside = false ∧ (crit0.thread 0).sup = true ∧ (crit0.thread 0).key = 0
    ∧ (crit0.thread 0).sb = [] ∧ (crit0.thread 0).greg 2 = ⟨0xFF0000000020, false⟩
    ∧ (0xFF0000000020#64 + (0#12).signExtend 64).toNat = Config.ctlBase + rCfgBwup ∧ bit (criticalBits rCfgBwup) (191 % 64) = true := by decide +kernel
theorem test_critical_word_repair :
    ((struck [127]).thread 0).greg 1 = ⟨5, false⟩ ∧ (struck [127]).rf rMicStatus 8 16 = 1 ∧ (struck [127]).box.wordHeld = false
    ∧ ((struck [1, 129]).thread 0).greg 1 = ⟨7, false⟩ ∧ (struck [12, 28]).rf rMicStatus 8 16 = 0 := by decide +kernel
def failed0 : Dev := (dev0.withRing (fun r => { r with state := .member })).vote rCfgBwup [⟨0xFF0000000020, 1⟩, ⟨0xFF0000000020, 66⟩]
theorem test_critical_word_fail : failed0.box.wordHeld = true ∧ failed0.ring.state = .out ∧ failed0.box.log = [.criticalWord 0x20] := by decide +kernel

/-- The youngest of two stores covers the load's bytes, or a part of them. -/
def fwd : Thread := { ptr0 with sb := [⟨scr, clean [9, 9], false, false, false⟩, ⟨scr, clean [1, 2, 3, 4], false, false, false⟩, ⟨scr + 64, clean [5], false, false, false⟩] }
theorem witness_LoadsForwardFromOwnStores :
    let s := at0 fwd mem0
    let e : StoreEntry := ⟨scr, clean [1, 2, 3, 4], false, false, false⟩
    s.ready 0 [1, 2] false = true ∧ fwd.greg 2 = ⟨word scr, false⟩ ∧ scr = (word scr + (0#12).signExtend 64).toNat ∧ 4 = 2 ^ (2#2).toNat ∧ 8 = 2 ^ (3#2).toNat
    ∧ inControl scr 8 = false ∧ scr % 64 + 8 ≤ 64 ∧ s.dev.checkAccess ⟨0, false, true, 0⟩ .load scr 8 = none ∧ s.dev.checkAccess ⟨0, false, true, 0⟩ .load scr 4 = none
    ∧ fwd.sb = [⟨scr, clean [9, 9], false, false, false⟩] ++ e :: [⟨scr + 64, clean [5], false, false, false⟩]
    ∧ e.overlaps scr 4 = true ∧ e.overlaps scr 8 = true ∧ (StoreEntry.overlaps ⟨scr + 64, clean [5], false, false, false⟩ scr 8) = false
    ∧ e.addr ≤ scr ∧ scr + 4 ≤ e.addr + e.data.length ∧ ¬ (scr + 8 ≤ e.addr + e.data.length) := by decide +kernel
/-- A store buffer with eight entries, and with seven. -/
def full (n : Nat) : Thread := { ptr0 with sb := (List.range n).map (fun i => ⟨scr + 0x1000 + 64 * i, clean [1], false, false, false⟩) }
theorem witness_StoresEnterTheBuffer :
    let s := at0 (full 7) mem0
    (full 7).greg 2 = ⟨word scr, false⟩ ∧ inControl scr 16 = false ∧ s.dev.checkAccess ⟨0, false, true, 0⟩ .store scr 16 = none
    ∧ s.ready 0 [3, 2] false = true ∧ (full 7).room scr 16 = true ∧ (full 8).room scr 1 = false ∧ (full 7).room (scr + 60) 8 = false
    ∧ (at0 (full 8) mem0).ready 0 [3, 2] false = true := by decide +kernel
/-- An oldest store to scratch, and one to a line of HBM that its cluster does not hold writable. -/
theorem witness_DrainMakesOldestStoreVisible :
    let s := at0 (full 2) mem0
    let hbm : StoreEntry := ⟨0x40, clean [7], false, false, false⟩
    0 < Config.threads ∧ s.dev.replaying (clusterOf 0) = false ∧ s.dev.box.rst = none ∧ s.dev.clusterLive 0 = true ∧ (full 2).releasing = false
    ∧ (full 2).sb ≠ [] ∧ s.dev.region (scr + 0x1000) ≠ .keys ∧ Config.hbmEnd ≤ scr ∧ s.dev.region hbm.addr ≠ .keys ∧ hbm.addr < Config.hbmEnd
    ∧ s.dev.holdsWritable 0 (hbm.addr / 64) = false ∧ s.ready 0 [] false = true ∧ (at0 ptr0 mem0).ready 0 [] false = true ∧ ptr0.sb = [] := by decide +kernel
/-- Cluster 0 holds HBM line 1 writable. -/
def mem1 : Dev := (mem0.setCluster 0 { (dev0.cluster 0) with lines := [⟨1, 1, true, none⟩] }).pokeBytes 0x40 (clean [0xFF, 0xFF, 0xFF, 0xFF])
theorem witness_AtomicsReadAndWriteOnce :
    let s := at0 (ptr0.put 4 0x40) mem1
    let t := ptr0.put 4 0x40
    s.ready 0 [1, 2, 3, 5] true = true ∧ s.ready 0 [1, 4, 3, 5] true = true ∧ t.sb = [] ∧ t.greg 2 = ⟨word scr, false⟩ ∧ t.greg 4 = ⟨0x40, false⟩
    ∧ t.greg 3 = ⟨0x1234, false⟩ ∧ t.greg 5 = ⟨0, false⟩ ∧ 4 = 2 ^ (2#2).toNat ∧ 8 = 2 ^ (3#2).toNat ∧ scr % 8 = 0
    ∧ anyPoison (s.dev.readBytes scr 8) = false ∧ anyPoison (s.dev.readBytes 0x40 4) = false
    ∧ s.dev.checkAccess ⟨0, false, true, 0⟩ .atomic scr 8 = none ∧ s.dev.checkAccess ⟨0, false, true, 0⟩ .atomic 0x40 4 = none
    ∧ ¬ scr < Config.hbmEnd ∧ s.dev.holdsWritable 0 (0x40 / 64) = true := by decide +kernel
/-- Masks of X0 and X31 at the start, of X31 alone as a resume state, and of nothing. -/
theorem witness_MultipleTransfersMoveLowestFirst :
    let t := ptr0.put 3 0x80000001
    let u := { ptr0 with mc := some ⟨0x80000000, word scr⟩ }
    (at0 t mem0).ready 0 [2, 3] false = true ∧ t.posts = [] ∧ t.mc = none ∧ t.greg 2 = ⟨word scr, false⟩ ∧ t.greg 3 = ⟨0x80000001, false⟩
    ∧ 0x80000001#32 = (0x80000001 : Word).setWidth 32 ∧ (0x80000001#32).getLsbD 0 = true ∧ (at0 u mem0).ready 0 [2, 3] false = true
    ∧ u.mc = some ⟨0x80000000, word scr⟩ ∧ (0x80000000#32).getLsbD 31 = true ∧ (∀ j, j < 31 → (0x80000000#32).getLsbD j = false)
    ∧ (at0 t mem0).dev.checkAccess ⟨0, false, true, 0⟩ .load scr 8 = none ∧ t.noStoreIn scr 8 = true
    ∧ (at0 t mem0).dev.checkAccess ⟨0, false, true, 0⟩ .store scr 8 = none ∧ t.room scr 8 = true ∧ 0#32 = (0 : Word).setWidth 32 := by decide +kernel
theorem witness_LinesAreFilledGrantedAndTaken :
    let s := at0 ptr0 mem1
    0 < Config.clusters ∧ s.dev.clusterLive 0 = true ∧ s.dev.thr.all (fun p => p.2.sb.isEmpty) = true ∧ 64 * 0x6B49D1FF < Config.hbmEnd ∧ 0 < s.dev.cacheSets 0
    ∧ s.dev.heldElsewhere 0 0x6B49D1FF false = false ∧ s.dev.heldElsewhere 0 0x6B49D1FF true = false
    ∧ (s.dev.cluster 0).lines.all (fun y => y.line != 0x6B49D1FF) = true
    ∧ ((s.dev.cluster 0).lines.filter (fun y => y.line % s.dev.cacheSets 0 == 0x6B49D1FF % s.dev.cacheSets 0)).length < 16
    ∧ s.dev.hbmUps 0x6B49D1FF = [] ∧ s.dev.heldElsewhere 0 1 false = false ∧ (s.dev.cluster 0).lines.any (fun y => y.line == 1) = true
    ∧ ptr0.run = .running ∧ s.dev.region (64 * (ptr0.pc.toNat / 64)) = .code 0 := by decide +kernel

/-! ### Decimal -/

/-- Accumulators: the greatest value, 7 and -3; overflow masked (TS 12), division by zero masked (TS 13). -/
def accs (ts : Word) : Thread := (((({ ptr0 with ts := ts } : Thread).setAcc 0 ⟨10 ^ 64 - 1, false⟩).setAcc 1 ⟨7, false⟩).setAcc 2 ⟨-3, false⟩)
theorem witness_AccumulatorArithmeticIsExact :
    (at0 (accs 0x3001)).ready 0 [] true = true ∧ (accs 0x3001).dl = false ∧ (accs 0x3001).acc 0 = ⟨10 ^ 64 - 1, false⟩ ∧ (accs 0x3001).acc 1 = ⟨7, false⟩
    ∧ (accs 0x3001).acc 2 = ⟨-3, false⟩ ∧ (accs 0x3001).acc 3 = ⟨0, false⟩ ∧ (accs 0x3001).dom = true ∧ (accs 0x3001).ddm = true
    ∧ (accs 1).dom = false ∧ (at0 (accs 1)).ready 0 [] true = true ∧ 10 ^ 64 ≤ (10 ^ 64 - 1 + 7 : Int).natAbs ∧ (7 : Int) ≠ 0 := by decide +kernel
theorem witness_DecimalFits : DecimalFits (accs 0x3001) (10 ^ 64 - 1) 64 (10 ^ 64 - 1) false ∧ DecimalFits (accs 0x3001) (10 ^ 64) 64 0 true := by
  refine ⟨.inl ⟨by decide +kernel, rfl, rfl⟩, .inr ⟨by decide +kernel, by decide +kernel, by decide +kernel, rfl⟩⟩
theorem witness_AccumulatorsShiftAndConvert :
    (at0 (accs 0x3001)).ready 0 [] true = true ∧ (accs 0x3001).acc 1 = ⟨7, false⟩ ∧ (0#2) ≠ 3 ∧ (2#2) ≠ 3 ∧ 0 ≤ (63#7).toInt ∧ 0 ≤ (0#7).toInt
    ∧ (64#7).toInt < 0 ∧ (127#7).toInt < 0 ∧ (7 : Int).natAbs < 10 ^ 64 ∧ (accs 0x3001).dom = true ∧ (7#64).toInt = 7
    ∧ (accs 0x3001).acc 0 = ⟨10 ^ 64 - 1, false⟩ ∧ (accs 0x3001).greg 3 = ⟨0x1234, false⟩ := by decide +kernel
/-- -123 and +45 as packed fields, and +45 zoned under each convention. -/
def decs : Dev := ((((dev0.pokeBytes scr (clean [0x12, 0x3D])).pokeBytes (scr + 16) (clean [0x04, 0x5C])).pokeBytes (scr + 32) (clean [0x34, 0x35])).pokeBytes
  (scr + 48) (clean [0x34, 0x35, 0x2B])).pokeBytes (scr + 64) (clean [0x2B, 0x34, 0x35])
def decT (ts : Word := 1) : Thread := { (ptr0.put 3 (word (scr + 16))) with ts := ts }
theorem witness_packed : IsPacked [0x12, 0x3D] (-123) ∧ IsPacked [0x04, 0x5C] 45 ∧ IsPacked [0x0C] 0 := by
  refine ⟨⟨by decide, by decide, by decide, by decide⟩, ⟨by decide, by decide, by decide, by decide⟩, by decide, by decide, by decide, by decide⟩
theorem witness_zoned : IsZoned 0 [0x34, 0x35] 45 ∧ IsZoned 1 [0x34, 0x35, 0x2B] 45 ∧ IsZoned 2 [0x2B, 0x34, 0x35] 45 := by
  refine ⟨⟨[4, 5], by decide, .inl (by decide)⟩, ⟨[4, 5], by decide, .inr (.inl (by decide))⟩, ⟨[4, 5], by decide, .inr (.inr (.inr (.inl (by decide))))⟩⟩
theorem witness_StorageArithmeticIsExact :
    let s := at0 (decT 0x3001) decs
    let w : Who := ⟨0, false, true, 0⟩
    s.ready 0 [2, 3] true = true ∧ (decT 0x3001).greg 2 = ⟨word scr, false⟩ ∧ (decT 0x3001).greg 3 = ⟨word (scr + 16), false⟩
    ∧ scr = (word scr + (0#16).signExtend 64).toNat ∧ scr + 16 = (word (scr + 16) + (0#16).signExtend 64).toNat
    ∧ scr + 2 ≤ Config.keyBase ∧ scr + 18 ≤ Config.keyBase ∧ s.dev.checkAccess w .load (scr + 16) 2 = none ∧ s.dev.checkAccess w .load scr 2 = none
    ∧ s.dev.checkAccess w .store scr 2 = none ∧ (decT 0x3001).noStoreIn scr 2 = true ∧ (decT 0x3001).room scr 2 = true
    ∧ vals (s.dev.readBytes scr 2) = [0x12, 0x3D] ∧ vals (s.dev.readBytes (scr + 16) 2) = [0x04, 0x5C]
    ∧ anyPoison (s.dev.readBytes scr 2) = false ∧ (decT 0x3001).ddm = true ∧ (decT 0x3001).dom = true
    ∧ vals (s.dev.readBytes (scr + 0x3FA000 - 0x200000) 1) = [0] := by decide +kernel
theorem witness_DecimalFieldsMoveAndConvert :
    let s := at0 (decT 0x3001) decs
    let w : Who := ⟨0, false, true, 0⟩
    s.ready 0 [2, 3] true = true ∧ (decT 0x3001).dl = false ∧ scr = (word scr + (0#12).signExtend 64).toNat
    ∧ s.dev.checkAccess w .load scr 2 = none ∧ s.dev.checkAccess w .store scr 2 = none ∧ (decT 0x3001).acc 0 = ⟨0, false⟩
    ∧ vals (s.dev.readBytes (scr + 32) 2) = [0x34, 0x35] ∧ vals (s.dev.readBytes (scr + 48) 3) = [0x34, 0x35, 0x2B]
    ∧ vals (s.dev.readBytes (scr + 64) 3) = [0x2B, 0x34, 0x35] ∧ scr + 64 = (word (scr + 16) + (48#16).signExtend 64).toNat
    ∧ s.dev.checkAccess w .load (scr + 64) 3 = none ∧ (decT 0x3001).room scr 2 = true ∧ (0#2 ≠ 3 ∧ 1#2 ≠ 3 ∧ 2#2 ≠ 3) := by decide +kernel
/-- A field with an invalid sign is none. -/
theorem witness_dtst : ¬ ∃ v, IsPacked [0x12, 0x39] v := by
  rintro ⟨v, _, _, h, _⟩; revert h; decide
/-- The block below 0x400000008000 and the area below 0x400000009000, with D1 = 7. -/
def lazy0 : Thread := { accs 0x4001 with lazySave := some ⟨0x400000009000 - 288, 0x400000008000 - 512⟩ }
theorem witness_FirstAccumulatorUseFillsTheArea : (at0 lazy0).ready 0 [] true = true ∧ lazy0.dl = true
    ∧ lazy0.lazySave = some ⟨0x400000009000 - 288, 0x400000008000 - 512⟩ ∧ lazy0.sb = [] ∧ lazy0.acc 1 = ⟨7, false⟩ ∧ lazy0.acc 2 = ⟨-3, false⟩
    ∧ 0x400000008000 - 512 + 56 ≤ 0x400000009000 - 288 := by decide +kernel

/-! ### Strings and floating -/

/-- Three pointers and a count: source and table in scratch, destination 256 bytes on. -/
def strD : Dev := (dev0.pokeBytes scr (clean [0x12, 0x3C, 3, 4, 5])).pokeBytes (scr + 512) (clean [1, 0, 0, 7])
def strT (n : Nat) : Thread := ((((ptr0.put 1 (word (scr + 256))).put 2 (word scr)).put 3 (word n)).put 4 (word (scr + 512))).put 5 99
theorem witness_StringMovesGoForward :
    let w : Who := ⟨0, false, true, 0⟩
    let s := at0 (strT 20) strD
    s.ready 0 [1, 2, 3, 4] false = true ∧ (strT 20).greg 1 = ⟨word (scr + 256), false⟩ ∧ (strT 20).greg 3 = ⟨20, false⟩ ∧ (strT 0).greg 3 = ⟨0, false⟩
    ∧ (at0 (strT 0) strD).ready 0 [1, 2, 3, 4] false = true ∧ (strT 20).greg 2 = ⟨word scr, false⟩ ∧ (strT 20).greg 4 = ⟨word (scr + 512), false⟩
    ∧ 16 = Nat.min 16 (20 : Word).toNat ∧ s.dev.checkAccess w .store (scr + 256) 16 = none ∧ (strT 20).room (scr + 256) 16 = true
    ∧ s.dev.checkAccess w .load scr 16 = none ∧ (strT 20).noStoreIn scr 16 = true ∧ scr + 16 ≤ Config.keyBase ∧ scr + 16 ≤ scr + 256
    ∧ (∀ i, i < 16 → (s.byte (scr + i)).poison = false
      ∧ s.dev.checkAccess w .load (word (scr + 512) + (s.byte (scr + i)).val.setWidth 64).toNat 1 = none
      ∧ (word (scr + 512) + (s.byte (scr + i)).val.setWidth 64).toNat ≤ Config.keyBase - 1
      ∧ scr + 256 + 16 ≤ (word (scr + 512) + (s.byte (scr + i)).val.setWidth 64).toNat) := by decide +kernel
theorem witness_StringSearchesStopAtTheFirst :
    let w : Who := ⟨0, false, true, 0⟩
    let s := at0 (strT 3) strD
    s.ready 0 [] true = true ∧ (strT 3).greg 2 = ⟨word scr, false⟩ ∧ (strT 3).greg 3 = ⟨3, false⟩ ∧ 3 ≤ (3 : Word).toNat ∧ 3 < 16 * 1
    ∧ s.dev.checkAccess w .load scr 3 = none ∧ (∀ i, i < 3 → (s.byte (scr + i)).poison = false) ∧ (strT 3).greg 1 = ⟨word (scr + 256), false⟩
    ∧ s.dev.checkAccess w .load (scr + 256) 3 = none ∧ (s.byte (scr + 256)).val ≠ (s.byte scr).val ∧ (0 : Nat) < (3 : Word).toNat
    ∧ (((s.byte scr).val == 0x3C#8) != false) = false ∧ (((s.byte (scr + 1)).val == 0x3C#8) != false) = true
    ∧ (strT 3).greg 4 = ⟨word (scr + 512), false⟩ ∧ (s.byte (scr + 512 + 0x12)).val = 0 ∧ (s.byte (scr + 512 + 3)).val ≠ 0 := by decide +kernel
/-- EDIT of one pattern byte: a digit that is shown with the symbol before it, and a byte before any field. -/
theorem witness_EditWritesOneBytePerPatternByte :
    let w : Who := ⟨0, false, true, 0⟩
    let t := { (strT 1).put 4 (word (scr + 2)) with es := ⟨0x2080, false⟩ }
    let s := at0 t (strD.setByte (scr + 2) 5)
    s.ready 0 [] true = true ∧ [1#5, 2#5, 3#5, 4#5, 5#5].Nodup ∧ 0#5 ∉ [1#5, 2#5, 3#5, 4#5, 5#5] ∧ t.greg 3 = ⟨1, false⟩ ∧ t.es = ⟨0x2080, false⟩
    ∧ s.byte (scr + 2) = ⟨5, false⟩ ∧ s.byte scr = ⟨0x12, false⟩ ∧ (0x12#8).toNat / 16 ≤ 9 ∧ bit (0x2080 : Word) 7 = true
    ∧ s.dev.checkAccess w .load (scr + 2) 1 = none ∧ s.dev.checkAccess w .store (scr + 256) 1 = none ∧ s.dev.checkAccess w .store (scr + 255) 1 = none
    ∧ t.room (scr + 255) 2 = true ∧ t.noStoreIn (scr + 2) 1 = true ∧ scr + 3 ≤ Config.keyBase ∧ (at0 (strT 1) strD).ready 0 [] true = true
    ∧ (strT 1).es = ⟨0, false⟩ := by decide +kernel
theorem witness_ElementsAndRepeatAdvance :
    let w : Who := ⟨0, false, true, 0⟩
    let s := at0 (strT 3) strD
    s.ready 0 [1, 2, 4] false = true ∧ (strT 3).greg 1 = ⟨word (scr + 256), false⟩ ∧ s.dev.checkAccess w .store (scr + 256) 8 = none
    ∧ (strT 3).room (scr + 256) 8 = true ∧ 8 = 2 ^ (3#2).toNat ∧ 1 = 2 ^ (0#2).toNat ∧ s.dev.checkAccess w .load scr 8 = none ∧ (strT 3).cnt = 0
    ∧ ({ strT 3 with cnt := 1 } : Thread).cnt = 1 ∧ ({ strT 3 with cnt := 2 } : Thread).cnt ≠ 0 ∧ s.byte (scr + 2) = ⟨3, false⟩
    ∧ s.dev.checkAccess w .load (scr + 515) 1 = none := by decide +kernel

/-- binary64 registers: F0 = 1.5, F2 = -2, F4 = 0, F6 infinity, F8 a signaling NaN. -/
def flt (fps : Word := 0) : Thread :=
  (((({ ptr0 with fps := fps } : Thread).setFreg 0 ⟨0x3FF8000000000000, false⟩).setFreg 2 ⟨0xC000000000000000, false⟩).setFreg 6 ⟨0x7FF0000000000000, false⟩).setFreg 8
    ⟨0x7FF0000000000001, false⟩
theorem witness_FloatingResultsAreWrittenAtIssue :
    (at0 (flt)).ready 0 [] true = true ∧ (flt).fOperand 1 0 = some (.fin false (3 * 2 ^ 51) (-52)) ∧ (flt).fOperand 1 2 = some (.fin true (2 ^ 52) (-51))
    ∧ (flt).fOperand 1 6 = some (.inf false) ∧ (flt).fOperand 1 8 = some (.nan false true 1) ∧ ((flt).fOperand 1 4).map FVal.isZero = some true
    ∧ ((flt).fOperand 2 10).isSome = true ∧ ((flt).fOperand 3 10).isSome = true ∧ 2 ≤ (2#2).toNat ∧ (3#2 ≠ 1#2) ∧ (14#4).toNat % 2 = 0 := by decide +kernel
theorem witness_RoundingIsCorrect : 0 < 1 ∧ 0 < 3 ∧ ((roundTo (fmtOf 0) .even false 1 3 0 0).raised &&& fIX ≠ 0)
    ∧ ((roundTo (fmtOf 0) .pos true (2 ^ 25) 1 200 200).raised &&& fOF ≠ 0) ∧ ((roundTo (fmtOf 0) .zero false 1 3 (-150) 0).raised &&& fUF ≠ 0)
    ∧ (roundTo (fmtOf 2) .away false 1 4 0 0).raised = 0 := by decide +kernel
theorem witness_FloatingMovesAndIntegerConversions :
    (at0 (flt)).ready 0 [3] true = true ∧ (flt).freg 0 = ⟨0x3FF8000000000000, false⟩ ∧ (flt).freg 1 = ⟨0, false⟩ ∧ (0#2 ≠ 3) ∧ (14#4).toNat % 2 = 0
    ∧ ((flt).fOperand 1 0).isSome = true ∧ (flt).fOperand 1 6 = some (.inf false) ∧ ((flt).fOperand 1 8).map FVal.isNan = some true
    ∧ (flt).rnd = .even ∧ (flt 0x10000).rnd = .away ∧ (flt 0x20000).rnd = .zero ∧ (flt 0x30000).rnd = .pos ∧ (flt 0x40000).rnd = .neg
    ∧ (flt).greg 3 = ⟨0x1234, false⟩ ∧ (flt).greg 5 = ⟨0, false⟩ := by decide +kernel
/-- An operation that raised IO waits; its trap is enabled, and the next one finds PEND already 1. -/
def waits (fps : Word) : Thread := { flt fps with fpOut := [⟨0x500000000400, 1⟩, ⟨0x500000000404, 1⟩], fpBefore := 1 }
theorem witness_PackedFloatingAndCompletion :
    let w : Who := ⟨0, false, true, 0⟩
    let t := (flt).put 2 (word scr)
    let s := at0 t decs
    s.ready 0 [2] false = true ∧ t.greg 2 = ⟨word scr, false⟩ ∧ s.dev.checkAccess w .load scr 2 = none ∧ t.noStoreIn scr 2 = true
    ∧ anyPoison (s.dev.readBytes scr 2) = false ∧ vals (s.dev.readBytes scr 2) = [0x12, 0x3D] ∧ s.dev.checkAccess w .store scr 2 = none
    ∧ t.room scr 2 = true ∧ (t.fOperand 2 10).isSome = true ∧ (14#4).toNat % 2 = 0
    ∧ (at0 (waits 0x100)).dev.box.rst = none ∧ (at0 (waits 0x100)).dev.clusterLive 0 = true ∧ (waits 0x100).fpOut[0]? = some ⟨0x500000000400, 1⟩
    ∧ bit (waits 0x100).fps 19 = false ∧ (waits 0x80100).fpOut[1]? = some ⟨0x500000000404, 1⟩ ∧ bit (waits 0x80100).fps 19 = true
    ∧ 0 < (waits 0x80100).fpBefore ∧ (0 : Nat) = (1 : Nat) &&& fld (waits 0).fps 8 5 := by decide +kernel

/-! ### Interrupts, posts, the Yard and the doors -/

theorem witness_InterruptsAndFetchFaultsEnter :
    let d := (tabled [64]).withBox (fun b => { b with routes := [(7, 0x81405000)] })
    let t := { enterer with ts := 0x41, irqs := [⟨false, 64, 5⟩, ⟨true, 64, 5⟩] }
    let s := at0 t { d with edges := [7] }
    bit (SMap.get (fun _ => (0 : Word)) s.dev.box.routes 7) 31 = true ∧ bit (SMap.get (fun _ => (0 : Word)) s.dev.box.routes 4095) 31 = false
    ∧ 7 ∈ s.dev.edges ∧ fld (0x81405000 : Word) 0 12 < Config.threads ∧ s.dev.replaying 0 = false ∧ (s.dev.cluster (clusterOf (fld (0x81405000 : Word) 0 12))).held = false
    ∧ s.dev.coreRuns 0 = true ∧ t.run = .running ∧ t.commitDue = false ∧ t.releasing = false ∧ t.fpOut = [] ∧ t.posts = [] ∧ bit t.fps 19 = false
    ∧ t.ie = true ∧ ⟨false, 64, 5⟩ ∈ t.irqs ∧ 5 > t.ipl
    ∧ (∀ j ∈ t.irqs, j.prio > t.ipl → j ≠ ⟨false, 64, 5⟩ → j.prio < 5 ∨ (j.prio = 5 ∧ (64 < j.vector ∨ (64 = j.vector ∧ false = false ∧ j.world = true))))
    ∧ (tryEnter (s.dev.ctx 0) 64 (some ⟨false, 64, 5⟩) 0 0).toBool = true := by decide +kernel
/-- A pending interrupt with a lower priority; and what a fetch finds: no code store, another world's frame, a poisoned word, a major that is not
assigned, and a hint. -/
theorem witness_fetch :
    let w : Who := ⟨0, false, true, 0⟩
    ({ enterer with irqs := [⟨true, 64, 5⟩] } : Thread).irqs = [⟨true, 64, 5⟩]
    ∧ (at0 ptr0).ready 0 [] false = true ∧ dev0.checkAccess w .fetch scr 4 = some (scr, .address)
    ∧ dev0.checkAccess ⟨0, true, true, 0⟩ .fetch 0x500000000400 4 = some (0x500000000400, .key) ∧ dev0.checkAccess w .fetch 0x500000000400 4 = none
    ∧ anyPoison ((dev0.setMark (0x500000000400 / 8) true).readBytes 0x500000000400 4) = true
    ∧ ofLe (vals (dev0.readBytes 0x500000000400 4)) / 2 ^ 26 = 0
    ∧ ofLe (vals ((dev0.setByte 0x500000000403 0xF8).readBytes 0x500000000400 4)) / 2 ^ 26 = 0x3E := by decide +kernel

/-- Account 5 of track 8708: its directory slot, and its line at 0x1000 with a balance of 100 and a limit of 0, open, of key 1 in the Up world. -/
def acct5 : Nat := 8708
def line5 : List PByte := clean (packedBytes 16 100 ++ packedBytes 16 0 ++ leBytes 8 1 ++ leBytes 24 0)
/-- A device in service: the track homed in cluster 0, its record queue, one class, one source, one port, one thread in the pool. -/
def dev1 : Dev :=
  let d := { dev0 with
    yard := { Yard.reset with tracks := [(acct5, { Track.reset with state := .settled })] }
    hub := { Hub.reset with queues := [(4, ⟨0x20000, 0, 4, 1, true, false, 0, 15, 0, 0⟩)] }
    ring := { Ring.reset with state := .member }
    tt := { Tt.reset with classes := [(3, (1, 0x400))], sources := [(9, 10)], pools := [(0, 2)],
                          ports := [(0, ⟨1, 0, 1600, 1, 0, 0x0A000001, 2 ^ 120 + 1⟩)] } }
  let d := ((d.pokeBytes (64 * acct5) (clean (leBytes 8 5 ++ leBytes 8 0x1001))).pokeBytes 0x1000 line5).setRb (rEthStatus 0) 7 true |>.setRf rPeDir 60 4 1
  d.setCluster 0 { (d.cluster 0) with lines := [⟨0x40, 0, true, none⟩] }
def post5 (x : Int) : PostReq := ⟨0, 0, acct5, 5, packedBytes 16 x, none, 0, 0, false, false, 1, 0, false, 0, false, false⟩
/-- A thread about to post 3 to account 5, with a consist of one record or without one. -/
def poster (k : Option Consist) : Thread := { (ptr0.put 3 5).put 4 0 with consist := k }
def amount : Dev := dev1.pokeBytes scr (clean (packedBytes 16 3))
theorem witness_post :
    let s := at0 (poster none) amount
    s.ready 0 [1, 3, 2, 4] false = true ∧ (poster none).sb = [] ∧ (poster none).posts.length < 4 ∧ (poster none).greg 2 = ⟨word scr, false⟩ ∧ scr % 16 = 0
    ∧ s.dev.checkAccess ⟨0, false, true, 0⟩ .load scr 16 = none ∧ scr + 16 ≤ Config.keyBase ∧ (poster none).greg 3 = ⟨5, false⟩
    ∧ anyPoison (s.dev.readBytes scr 16) = false ∧ (poster none).greg 4 = ⟨0, false⟩ ∧ (s.dev.track (s.dev.trackOf 5)).owned = true
    ∧ (s.dev.track (s.dev.trackOf 6)).owned = false ∧ (poster (some ⟨acct5, [⟨0, 7⟩], 0, 0⟩)).posts = [] ∧ (poster (some ⟨acct5, [⟨0, 7⟩], 0, 0⟩)).consist = some ⟨acct5, [⟨0, 7⟩], 0, 0⟩
    ∧ ([⟨0, 7⟩] : List ConsistRec)[fld (0 : Word) 0 4]? = some ⟨0, 7⟩ ∧ ([⟨0, 7⟩] : List ConsistRec)[fld (15 : Word) 0 4]? = none := by decide +kernel
theorem witness_postExecute :
    let d := amount.withHub (fun h => { h with posts := [post5 3, { post5 4 with tag := 1 }, { post5 5 with tag := 2, engine := 31, arrived := true }] })
    let free := d.setCluster 0 (dev0.cluster 0)
    d.hub.posts = post5 3 :: d.hub.posts.drop 1 ∧ (post5 3).tag = 0 ∧ (∀ x ∈ d.hub.posts.drop 1, 0 < x.tag ∧ (x.arrived = true → x.engine ≠ (post5 3).engine))
    ∧ (d.track acct5).state ≠ .moving ∧ d.resetting 0 = false ∧ (dev0.dirFind 5) = .none ∧ d.dirFind 5 = .slot (64 * acct5)
    ∧ (d.slotAt (64 * acct5)).2.1 % 2 ^ 48 / 64 * 64 = 0x1000 ∧ 0x1000 + 64 ≤ Config.hbmEnd ∧ d.holdsWritable 0 0x40 = true
    ∧ free.holdsWritable 0 0x40 = false ∧ d.jnl.entryRoom = true
    ∧ (match judgePost (post5 3) (lineOf (d.readBytes 0x1000 64)) with | .ok v => decide (v = (3, 103)) | .error _ => false) = true
    ∧ (match judgePost { post5 3 with world := true } (lineOf (d.readBytes 0x1000 64)) with | .ok _ => false | .error k => decide (k = 2)) = true := by
  decide +kernel
/-- Account lines: open, of the wrong world, closed, and each limit kind; amounts valid and not. -/
theorem witness_judgePost :
    let l := fun (st : Nat) => Line.mk (.ok 100) (.ok 0) st false
    (l 1).balance = .ok 100 ∧ (l 1).limit = .ok 0 ∧ (l 1).poisoned = false ∧ (l 0xE1).state / 256 % 256 = 0
    ∧ (post5 3).world ≠ decide ((l 0x11).state / 16 % 2 = 1) ∧ ((post5 3).key ≠ 0 ∧ (post5 3).key = (l 1).state % 16) ∧ (l 0x81).state / 128 % 2 = 1
    ∧ (l 0x61).state / 32 % 4 = 3 ∧ (l 0x21).state / 32 % 4 = 1 ∧ (l 0x41).state / 32 % 4 = 2 ∧ (post5 3).amt.length = 16
    ∧ 10 ^ 31 ≤ (100 + (10 ^ 31 - 1) : Int).natAbs := by refine ⟨rfl, rfl, rfl, ?_⟩; decide +kernel
theorem witness_postAmounts : IsPacked (post5 (-3)).amt (-3) ∧ ¬ ∃ y, IsPacked (List.replicate 16 0xFF#8) y := by
  refine ⟨⟨by decide, by decide, by decide, by decide +kernel⟩, ?_⟩
  rintro ⟨v, _, h, _⟩; revert h; decide
theorem witness_postResult :
    let d := (dev1.setThread 0 { poster none with posts := [⟨0, 1, true⟩, ⟨1, 2, false⟩] }).withHub (fun h => { h with results := [⟨0, 0, 1, 0, true⟩] })
    d.hub.results.find? (fun x => x.tag == 0) = some ⟨0, 0, 1, 0, true⟩ ∧ (d.thread 0).posts = ⟨0, 1, true⟩ :: [⟨1, 2, false⟩]
    ∧ d.box.rst = none ∧ (d.thread 0).releasing = false ∧ 1 ≠ 0 := by decide +kernel
theorem witness_release : (at0 (poster none) dev1).ready 0 [] false = true ∧ (poster none).sb = [] ∧ (poster none).posts = [] ∧ (poster none).fpOut = []
    ∧ bit (poster none).fps 19 = false ∧ dev1.releaseRoom ⟨acct5, [], 0, 0⟩ = true := by decide +kernel

/-- A record of account 5 that waits, and one of another class behind it. -/
def rec5 (id cls : Nat) (at_ : Place) : Rec := ⟨id, 0x600000000000 + 64 * id, 32, 9, id + 1, cls, false, 5, acct5, .host 0 0 0, 0, at_, false, 0, none⟩
def queued : Dev :=
  (dev1.withHub (fun h => { h with recs := [rec5 0 3 (.queue 4 0), rec5 1 4 (.queue 4 1)], nextRec := 2 })).setTrack acct5
    { Track.reset with state := .settled, waiting := [0, 1] }
theorem witness_YardDispatchesMovesAndDrains :
    queued.chooseTrack 0 = some acct5 ∧ queued.chooseThread 0 = some 1
    ∧ (queued.track acct5).waiting.filterMap queued.recOf = [rec5 0 3 (.queue 4 0), rec5 1 4 (.queue 4 1)] ∧ 1 < queued.consistMax
    ∧ (queued.thread 1).sup = false ∧ (queued.cluster 0).held = false
    ∧ ((queued.setCluster 0 { queued.cluster 0 with held := true }).cluster 0).held = true := by decide +kernel
theorem witness_moveComplete :
    let d := (queued.withYard (fun y => { y with moves := [(acct5, 3)] })).setTrack acct5 { Track.reset with state := .moving, target := 31, waiting := [0, 1] }
    acct5 < 65536 ∧ (d.cluster (d.track acct5).target).held = false ∧ (d.yard.moves.take 8).find? (fun p => p.1 == acct5) = some (acct5, 3) ∧ (d.track acct5).leaving = none ∧ d.box.rst = none
    ∧ d.yard.hold.length + (d.track acct5).waiting.length ≤ Config.holdSize := by decide +kernel
theorem witness_holdDrain :
    let d := ((dev1.withHub (fun h => { h with recs := [rec5 0 3 .hold], nextRec := 1 })).withYard (fun y => { y with hold := [0] }))
    (d.track acct5).state ≠ .moving ∧ (d.track acct5).owned = true ∧ d.heldOf acct5 = [0] ∧ d.recOf 0 = some (rec5 0 3 .hold)
    ∧ (d.queue (recordQueue (d.track acct5).home acct5)).occ < (d.queue (recordQueue (d.track acct5).home acct5)).size := by decide +kernel

/-- A datagram of one record of source 9 for account 5. -/
def bill : List Byte := leBytes 2 0x2020 ++ leBytes 2 3 ++ leBytes 8 5 ++ leBytes 8 0 ++ leBytes 2 9 ++ leBytes 6 1 ++ leBytes 4 0
def gram (typ : Nat) (body : List Byte) : Udp := ⟨7, none, false, 0x0A000002, 5, 0x0A000001, 19282, 100, wtHeader typ 9 1 0 body ++ body⟩
theorem witness_recordsDatagram :
    let d := dev1
    let b := waybill bill
    d.classify 0 (.udp (gram 1 bill)) = .records ∧ (gram 1 bill).payload.drop 16 = bill ∧ ofLe (((gram 1 bill).payload.drop 6).take 2) = 1
    ∧ ofLe (((gram 1 bill).payload.drop 4).take 2) = 9 ∧ b.length ≤ bill.length ∧ b.length = 32 ∧ b.ver = 1 ∧ b.flags = 0 ∧ b.source = 9
    ∧ SMap.get (fun _ => (0, 0)) d.tt.classes b.cls ≠ (0, 0) ∧ b.primary ≠ 0 ∧ 0 < d.credit 9 0 ∧ d.hub.waiting = [] ∧ d.ring.state = .member
    ∧ d.trackOf (word b.primary) = acct5 ∧ (d.track acct5).owned = true ∧ (d.track acct5).leaving = none ∧ (d.win 9).judge b.seq = .new
    ∧ (d.track acct5).state ≠ .moving ∧ d.yard.hold = [] ∧ (d.queue 4).occ < (d.queue 4).mark ∧ (d.queue 4).occ < (d.queue 4).size
    ∧ (d.queue 4).base + 64 * (d.queue 4).size ≤ Config.hbmEnd ∧ 15 < (d.queue 4).size ∧ 15 ∉ d.usedSlots 4 := by decide +kernel
theorem witness_bufferPlace : ∃ a, (dev1.bufferPlace 32).1 = some a := by
  unfold Dev.bufferPlace
  dsimp only
  split
  · exact ⟨_, rfl⟩
  · exact ⟨_, rfl⟩
/-- A record that waits for room, and one that no room will take: the buffer holds a record of its whole size. -/
theorem witness_recordBufferRoom :
    let w : WaitRec := ⟨bill, none, true, false, false, .host 0 0 0, 0⟩
    let full := dev1.withHub (fun h => { h with recs := [{ rec5 0 3 .hold with addr := 0x600000000000, len := 0x400000 }], waiting := [w] })
    full.hub.waiting = [w] ∧ (dev1.withHub (fun h => { h with waiting := [w] })).hub.waiting = [w] ∧ w.bytes.length = 32
    ∧ full.hub.recs.all Rec.inBuffer = true := by decide +kernel
theorem witness_frames :
    dev1.classify 0 (.udp (gram 3 [])) = .credit ∧ dev1.hears 0 = true ∧ 64 ≤ (dev1.portCfg 0).maxFrame ∧ (dev1.portCfg 0).ipv4 ≠ 0
    ∧ (dev1.portCfg 0).ipv6 ≠ 0 ∧ dev1.classify 0 (.other 64) = .drop 28 12 ∧ (dev1.portCfg 0).maxFrame < { gram 1 [] with flen := 1601 }.flen
    ∧ (gram 1 []).flen ≤ (dev1.portCfg 0).maxFrame ∧ { gram 1 [] with dport := 1 }.dport ≠ dev1.rf rQmWtCtl 0 16 := by decide +kernel
/-- An ACKS datagram that expires, and an acknowledgement that waits for its host queue: disabled, full and with room. -/
theorem witness_acks :
    let a : Ack := ⟨1, 0, 9, 1, none, 0⟩
    let g : Dgram := ⟨9, ⟨9, 0, false, 0x0A000002, 5, 0x0A000001, 19282⟩, 4097, [a]⟩
    let d := dev1.withHub (fun h => { h with dgrams := [g], peers := [⟨9, 0, 0x0A000002, 5, 7, none⟩], ackWait := [(.host 0 0 0, a)], queues := [(4097, ⟨0x30000, 0, 4, 2, true, false, 0, 0, 0, 1⟩)] })
    let e : QDesc := ⟨0x50000, 0x60000, 4, 5, true, false, 0, 0, 0, 0⟩
    d.hub.dgrams.head? = some g ∧ 0 < d.hub.dgrams.length ∧ (d.queue 4097).kind = 2 ∧ d.peer g.reply = some ⟨9, 0, 0x0A000002, 5, 7, none⟩
    ∧ (∀ j, j < g.acks.length → anyPoison (d.readBytes ((d.queue 4097).base + 16 * (((d.queue 4097).head + j) % (d.queue 4097).size)) 16) = false)
    ∧ d.hub.ackWait = [(.host 0 0 0, a)] ∧ d.thr.all (fun p => !p.2.releasing) = true ∧ (d.queue (hostQueue 0 0 16)).serves 5 = false
    ∧ e.serves 5 = true ∧ e.full = false ∧ ({ e with tail := 16 } : QDesc).full = true := by decide +kernel

/-! ### Host queues, the ring and its link -/

/-- An enabled submit queue with two entries, and an enabled acknowledgement queue with two. -/
def sub0 : QDesc := ⟨0x50000, 0x60000, 4, 4, true, false, 0, 0, 0, 2⟩
def ack0 : QDesc := ⟨0x70000, 0x80000, 4, 5, true, false, 0, 0, 0, 2⟩
def hostD : Dev := (((dev1.setQueue (hostQueue 1 32 15) sub0).setQueue (hostQueue 1 32 23) ack0)).setQueue 8191 ⟨0x90000, 0, 4, 6, true, false, 9, 3, 0, 2⟩
theorem witness_doorbells :
    let d := hostD
    (d.queue (hostQueue 1 32 15)).enable = true ∧ (d.queue (hostQueue 1 32 15)).qerr = false ∧ sub0.kind = 4 ∧ ack0.kind ≠ 4
    ∧ ((16#32).toNat + 2 ^ 32 - sub0.tail) % 2 ^ 32 + sub0.occ ≤ sub0.size ∧ sub0.size < ((17#32).toNat + 2 ^ 32 - sub0.tail) % 2 ^ 32 + sub0.occ
    ∧ ((2#32).toNat + 2 ^ 32 - ack0.head) % 2 ^ 32 ≤ ack0.occ ∧ ack0.occ < ((3#32).toNat + 2 ^ 32 - ack0.head) % 2 ^ 32
    ∧ d.hub.ackWait = [] ∧ d.hub.markers = [] ∧ d.jnl.units = [] ∧ d.jnl.notices = [] ∧ (d.queue (hostQueue 0 0 0)).enable = false := by decide +kernel
theorem witness_submit :
    let d := hostD
    sub0.serves 4 = true ∧ sub0.occ ≠ 0 ∧ (d.queue (hostQueue 1 32 (16 + 15 % 8))).full = false ∧ d.hub.waiting = [] ∧ d.yard.hold.length < Config.holdSize := by
  decide +kernel
theorem witness_canTake : (hostD.canTake ⟨bill, none, true, false, false, .host 1 32 15, 0⟩).1 = true := by
  have h : ∃ a, (hostD.bufferPlace bill.length).1 = some a := by
    unfold Dev.bufferPlace
    dsimp only
    split
    · exact ⟨_, rfl⟩
    · exact ⟨_, rfl⟩
  have k : (hostD.canTake ⟨bill, none, true, false, false, .host 1 32 15, 0⟩).2 = false := by decide +kernel
  obtain ⟨a, h⟩ := h
  show ((hostD.bufferPlace bill.length).1.isSome && !(hostD.canTake ⟨bill, none, true, false, false, .host 1 32 15, 0⟩).2) = true
  rw [h, k]; rfl
theorem witness_kernelQueues :
    let s : State := ⟨hostD, []⟩
    let y := hostD.queue 8191
    s.mayWriteSlot .box 3 = true ∧ fld (0x0000000300001FFF : Word) 0 13 = 8191 ∧ y.kind = 6 ∧ y.enable = true ∧ y.qerr = false
    ∧ bit (0x0000000300001FFF : Word) 13 = false ∧ (3 + 2 ^ 32 - y.tail) % 2 ^ 32 + y.occ ≤ y.size ∧ y.occ < y.mark ∧ y.mark ≤ ({ y with tail := 3 } : QDesc).occ
    ∧ bit (0x0000000200003FFF : Word) 13 = true ∧ (2 + 2 ^ 32 - y.head) % 2 ^ 32 ≤ y.occ ∧ (8191#13).toNat = 8191 := by decide +kernel
/-- An entry unit that a journal queue takes: at once, or only once it is committed. -/
def unit0 : JUnit := ⟨0, 0, 0, 1, leBytes 64 0, true, [], [], false, false⟩
def jq (sel : Nat) : Dev :=
  (hostD.withJnl (fun j => { j with units := [unit0], nextId := 1, epoch := 1, committed := 0, sels := [(4184, sel)] })).setQueue 4184 ⟨0x50000, 0x60000, 4, 3, true, false, 0, 0, 0, 0⟩
theorem witness_journalQueue :
    isJournalQueue 4184 = true ∧ isJournalQueue 6271 = true ∧ (jq 0).nextFor 4184 = none ∧ ((jq 3).nextFor 4184).map (fun p => p.2) = some false
    ∧ (jq 1).nextFor 4184 = some (unit0, true) ∧ ((jq 1).queue 4184).serves 3 = true ∧ ((jq 1).queue 4184).full = false ∧ (jq 1).jnl.notices = [] ∧ (jq 1).hub.markers = []
    ∧ selSrc ((jq 1).sel 4184) = 0 := by decide +kernel
theorem witness_mailboxLost : (dev1.setMbx 1 (some ⟨1, none, 0⟩)).mbx 1 = some ⟨1, none, 0⟩ ∧ dev1.box.power = .on := by decide +kernel

/-- A member of a ring of four with one other live member, both ports carrying, that holds member 1's chain up to sequence 4. -/
def port0 : Port := { Port.reset with up := true, fibres := 4, first := true }
def rep1 : Replica := { Replica.reset with next := some 5, mode := some true }
def ring0 : Dev :=
  { dev1.withRing (fun r => { r with
      live := 3, east := port0, west := port0, replicas := [(1, rep1)], transfers := [(6, ⟨.host 0 0 0, 9, 1⟩)], inserted := true }) with
    tt := { dev1.tt with n := 4 } }
def frm (typ origin hops : Nat) (body : List (List Byte)) : LFrame :=
  let f : LFrame := ⟨0x4C4C, 1, typ, origin, hops, 1, 1, 0, 0, 0, false, 0, body⟩
  { f with crc := frameCheck f }
/-- A frame is accepted: every part of `accepts` but the type, which is written out. -/
def takesIt (east : Bool) (f : LFrame) : Bool :=
  ring0.frameOk east f && !ring0.tooFar east f && !f.nak && ring0.ring.east.txq.isEmpty && ring0.ring.west.txq.isEmpty && ring0.ring.stream.isEmpty && ring0.ring.seeding.isEmpty
/-- A unit by its first bytes (short, so that its CRC is soon computed). -/
def unitOf (l : List Byte) : List Byte := l ++ List.replicate (20 - l.length) 0
theorem witness_accepts : State.accepts ⟨ring0, []⟩ true 9 (frm 9 1 0 []) := by
  refine ⟨by decide +kernel, rfl, by decide +kernel, rfl, by decide +kernel, by decide +kernel, by decide +kernel, by decide +kernel⟩
theorem witness_ringFrames :
    ring0.ring.state = .member ∧ takesIt false (frm 1 1 0 [unitOf (leBytes 8 5)]) = true ∧ takesIt false (frm 2 1 1 [unitOf [1]]) = true
    ∧ ring0.replica 1 = rep1 ∧ rep1.mode = some true ∧ rep1.broken = false ∧ (ring0.port true).carries = true ∧ (ring0.port true).store.length < 512
    ∧ (ring0.port false).carries = true ∧ (ring0.port false).store.length < 512 ∧ ufld (unitOf (leBytes 8 5)) 0 8 / 2 ^ 62 = 0
    ∧ 5 ≤ ufld (unitOf (leBytes 8 5)) 0 8 % 2 ^ 62 ∧ takesIt true (frm 3 1 0 [unitOf [0, 1, 1, 0, 0, 0, 0, 0, 7]]) = true
    ∧ ufld (unitOf [0, 1, 1, 0, 0, 0, 0, 0, 7]) 0 1 = ring0.tt.ringId ∧ ufld (unitOf [0, 1, 1, 0, 0, 0, 0, 0, 7]) 8 8 = 7
    ∧ ring0.jnl.units = [] ∧ ring0.jnl.notices = [] ∧ ring0.hub.markers = [] ∧ ring0.holders ring0.tt.ringId = [1] := by decide +kernel
theorem witness_epochack :
    let sl : JUnit := ⟨0, 1, 3, 7, leBytes 64 0, true, [], [], false, false⟩
    let d := ring0.withJnl (fun j => { j with units := [sl], committed := 6, epoch := 8 })
    d.jnl.units.filter (fun v => decide (v.kind = 1 ∧ d.jnl.committed < v.epoch)) = [sl] ∧ d.holders d.tt.ringId = [1]
    ∧ ufld (unitOf [0, 1, 1, 0, 0, 0, 0, 0, 7]) 8 8 = sl.epoch := by decide +kernel
theorem witness_ringFrames2 :
    takesIt true (frm 4 1 0 [unitOf [3, 0, 0, 0, 0, 0, 4]]) = true ∧ ufld (unitOf [3, 0, 0, 0, 0, 0, 4]) 0 1 = 3 ∧ ring0.ring.adopting = [] ∧ 1 < 16
    ∧ ufld (unitOf [3, 0, 0, 0, 0, 0, 4]) 6 1 ≠ clamp 2 64 (ring0.rf rJnlCtl 0 7)
    ∧ takesIt false (frm 4 1 0 [unitOf [5]]) = true ∧ ufld (unitOf [5]) 0 1 = 5 ∧ (ring0.liveWest ring0.tt.ringId).head? = some 1
    ∧ takesIt true (frm 6 1 0 [unitOf (leBytes 4 6 ++ [0, 0])]) = true ∧ ufld (unitOf (leBytes 4 6)) 5 1 = ring0.tt.ringId
    ∧ ring0.ring.transfers.find? (fun y => y.1 == ufld (unitOf (leBytes 4 6)) 0 4) = some (6, ⟨.host 0 0 0, 9, 1⟩)
    ∧ (ackOfBytes (((unitOf (leBytes 4 6)).drop 16).take 16)).kind ≠ 1 ∧ (ackOfBytes (((unitOf (leBytes 16 6 ++ [1])).drop 16).take 16)).kind = 1
    ∧ takesIt true (frm 7 1 0 [unitOf [0, 0, 0, 1]]) = true ∧ ufld (unitOf [0, 0, 0, 1]) 3 1 ≠ ring0.tt.ringId
    ∧ takesIt true (frm 8 1 0 [unitOf [2, 1]]) = true ∧ ufld (unitOf [2, 1]) 1 1 ≠ ring0.tt.ringId := by decide +kernel
theorem witness_transfer :
    let hdr := fun (dst o : Byte) => unitOf ([0, 0, 0, 0, dst] ++ List.replicate 11 o ++ [32])
    takesIt true (frm 5 1 0 [hdr 1 0, [0, 0, 0, 0, 5]]) = true ∧ ufld (hdr 0 0) 4 1 = ring0.tt.ringId ∧ ufld (hdr 1 0) 4 1 ≠ ring0.tt.ringId
    ∧ (ring0.track (ring0.trackOf (word (waybill ([0, 0, 0, 0, 5] : List Byte)).primary))).owned = true
    ∧ (ring0.track (ring0.trackOf (word (waybill ([0, 0, 0, 0, 6] : List Byte)).primary))).owned = false := by decide +kernel
theorem witness_link :
    ring0.frameOk true { frm 9 1 0 [] with crc := 0 } = false ∧ (ring0.port true).carries = true ∧ (ring0.port true).txq = []
    ∧ ring0.ring.inserted = true ∧ (ring0.setPort true { port0 with up := false }).ring.east.up = false ∧ port0.store = [] ∧ port0.heldDown = false ∧ ring0.ring.stream = [] ∧ ring0.ring.seeding = []
    ∧ ({ port0 with store := [frm 9 0 0 []] } : Port).store ≠ [] ∧ port0.up = true := by decide +kernel

/-! ### Losses, boundaries, control space and resets -/

def silent (n : Nat) (west : Port) : Dev := ring0.withRing (fun r => { r with silence := n, west := west })
theorem witness_LossesFenceAndRefuse :
    (silent 3 port0).ring.state = .member ∧ ((silent 3 port0).liveWest (silent 3 port0).tt.ringId).head? = some 1 ∧ (silent 3 port0).ring.adopting = []
    ∧ (silent 3 port0).ring.west.carries = true ∧ (silent 2 port0).ring.silence < 3 ∧ (silent 2 .reset).ring.west.carries = false
    ∧ (ring0.withRing (fun r => { r with east := .reset })).ring.east.carries = false
    ∧ (ring0.withRing (fun r => { r with state := .joining, east := .reset })).ring.state = .joining
    ∧ (ring0.withRing (fun r => { r with mute := 4 })).ring.state ≠ .out ∧ ring0.ring.mute < 4
    ∧ true = decide ((ring0.withRing (fun r => { r with inserted := false })).ring.state ≠ .out) ∧ false ≠ decide (ring0.ring.state ≠ .out)
    ∧ false = decide ((ring0.withRing (fun r => { r with state := .out })).ring.state ≠ .out) ∧ ring0.ring.inserted = true := by decide +kernel
/-- A member in an epoch, with one entry in it, a pending YRD_FORBID and a snapshot asked for. -/
def sealing : Dev :=
  (ring0.withJnl (fun j => { j with epoch := 4, next := 6, count := 1, first := 5, units := [unit0], nextId := 1 })).withBox (fun b => { b with rwe := [(rYrdForbid, some 2)] })
theorem witness_epochBoundary : sealing.boundaryDue = true ∧ (sealing.withJnl (fun j => { j with tickAt := some sealing.now })).boundaryDue = false
    ∧ sealing.ring.state = .member ∧ sealing.hub.markers = [] ∧ sealing.jnl.epoch ≠ 0 ∧ sealing.jnl.count ≠ 0
    ∧ sealing.jnl.unitRoom = true ∧ sealing.box.rwe = [(rYrdForbid, some 2)] ∧ (sealing.setRb rSnpCtl 0 true).rb rSnpCtl 0 = true := by decide +kernel
def signer (stopped : Bool) (sg : Option (List Byte)) : Dev :=
  ((jq 9).withJnl (fun j => { j with signing := sg })).withBox (fun b => { b with rngStopped := stopped }) |>.setRb rJnlCtl 24 true
theorem witness_signatures : (signer false none).signMarkDue = true ∧ (signer true none).signMarkDue = true ∧ (signer false (some [])).signMarkDue = true
    ∧ ((signer false none).setRb rJnlCtl 24 false).signMarkDue = false ∧ (signer false none).jnl.signing = none ∧ (signer false (some [])).hub.markers = []
    ∧ (signer false none).box.rngStopped = false ∧ (signer true (some (leBytes 64 0))).jnl.signing = some (leBytes 64 0)
    ∧ (signer false (some [])).jnl.reserveUsed + 128 ≤ 1024 ∧ (signer false (some [])).jnl.notices = []
    ∧ (∀ w ∈ (signer false (some [])).jnl.units, w.id < (signer false (some [])).jnl.nextId) ∧ 4184 ∈ (signer false (some [])).jqueues
    ∧ selBit ((signer false (some [])).sel 4184) 0 = true ∧ selSrc ((signer false (some [])).sel 4184) = 0
    ∧ selBit ((signer false (some [])).sel 4184) 2 = false ∧ selBit ((signer false (some [])).sel 4184) 3 = true := by decide +kernel
theorem witness_lineUpdate :
    let s : State := ⟨ring0, []⟩
    let v : Word := 0x1000000001000
    s.mayWriteSlot .box 6 = true ∧ ring0.rb rLlLupd 0 = false ∧ fld v 6 42 * 64 = 0x1000 ∧ 0x1000 + 64 ≤ Config.hbmEnd ∧ fld v 48 2 ≠ 0
    ∧ anyPoison (ring0.readBytes 0x1000 64) = false ∧ ring0.ring.handing = none ∧ ring0.ring.stream = [] ∧ ring0.ring.east.txq = []
    ∧ (ring0.port true).carries = true ∧ (ring0.port true).store.length < 512 ∧ ring0.holders ring0.tt.ringId ≠ []
    ∧ Config.hbmEnd < fld (0x1800000000000 : Word) 6 42 * 64 + 64 := by decide +kernel
theorem witness_heal :
    let s : State := ⟨dev1, []⟩
    s.mayWriteSlot .box 7 = true ∧ dev1.rb rMicHeal 0 = false ∧ dev1.region (fld (0x300000000000 : Word) 6 42 * 64) = .none
    ∧ fld (0x2000 : Word) 6 42 * 64 < Config.hbmEnd ∧ dev1.cachedAny (fld (0x2000 : Word) 6 42) = false := by decide +kernel

theorem witness_RegisterBitsFollowTheirClass :
    plainReg rMicCtl = true ∧ agentExists .box = true ∧ dev1.reaches .box = true ∧ dev1.mayWrite .box (rMicCtl / 4096) = true ∧ rMicCtl < 2 ^ 16
    ∧ agentExists (.thread 0) = true ∧ dev1.reaches (.thread 0) = true ∧ dev1.mayWrite (.thread 0) (rMicCtl / 4096) = false := by decide +kernel
theorem witness_control :
    let s : State := ⟨dev1, []⟩
    s.mayWriteSlot .box 0 = true ∧ s.mayWriteSlot .box 1 = true ∧ s.mayWriteSlot .box 2 = true ∧ s.mayWriteSlot .box 5 = true
    ∧ s.mayWriteSlot .box 6 = true ∧ s.mayWriteSlot .box 10 = true
    ∧ ((0x801F0000#32).getLsbD 31 = true ∧ (0x801F0000#32).toNat / 2 ^ 16 % 256 < 32) ∧ Config.threads ≤ (0x80200C00#32).toNat % 4096
    ∧ ¬ (((0x80200BFF#32).getLsbD 31 = true ∧ (0x80200BFF#32).toNat / 2 ^ 16 % 256 < 32) ∨ Config.threads ≤ (0x80200BFF#32).toNat % 4096)
    ∧ Config.threads ≤ (0x00000C00#32).toNat % 4096 ∧ dev1.hub.markers = []
    ∧ (List.range Config.clusters).all (fun k => (0xFFFFFFFF#32).getLsbD k || dev1.rb rPwrNapen k) = true
    ∧ (List.range Config.clusters).all (fun k => (0x7FFFFFFF#32).getLsbD k || dev1.rb rPwrNapen k) = false ∧ dev1.rb rYrdSnap 0 = false
    ∧ dev1.yard.pinq.length < 64 ∧ 64 ≤ (dev1.withYard (fun y => { y with pinq := List.replicate 64 ⟨true, 0, 0⟩ })).yard.pinq.length
    ∧ isJournalQueue (dev1.rf rJnlQsel 0 13) = false ∧ isJournalQueue ((dev1.setReg rJnlQsel 4184).rf rJnlQsel 0 13) = true
    ∧ (0x30#32).toNat / 16 % 4 = 3 ∧ 8 < (0x900#32).toNat / 256 % 16 ∧ (0x821#32).toNat / 16 % 4 ≠ 3 ∧ ¬ 8 < (0x821#32).toNat / 256 % 16 := by decide +kernel
/-- The Interlock: a value that is held, by the agent that completes it and by another; and PWR_CAUTION's slow write. -/
def held (a : Agent) (o : Nat) (v : Word) (st : RState := .member) (bypass : Word := 0) : Dev :=
  ((ring0.withBox (fun b => { b with ilk := [⟨a, o, v⟩], rws := [(rPwrCaution, some 5)] })).withRing (fun r => { r with state := st })).setReg rLlBypass bypass
theorem witness_interlock :
    (held .box rLlBypass 2).box.ilk = [⟨.box, rLlBypass, 2⟩] ∧ rwiReg false = rLlBypass ∧ rwiReg true = rPwrRstcmd ∧ ring0.box.ilk = []
    ∧ State.mayWriteSlot ⟨held .box rLlBypass 2, []⟩ .box 6 = true ∧ (held .box rLlBypass 0 .out 1).rb rLlBypass 0 = true
    ∧ (held .box rLlBypass 0 .out 1).ring.state = .out ∧ (held .box rLlBypass 0 .out 1).inService = true
    ∧ (⟨Agent.pcia, rLlBypass, 2⟩ : Held).agent ≠ .box ∧ (held .box rPwrRstcmd 3).box.ilk = [⟨.box, rPwrRstcmd, 3⟩]
    ∧ SMap.get (fun _ => (none : Option Word)) (held .box rLlBypass 2).box.rws rPwrCaution = some 5 ∧ (held .box rLlBypass 2).box.power = .on := by decide +kernel
theorem witness_resets :
    let t := held .box rPwrRstcmd (word (1 * 2 ^ 16 + 1))
    State.mayWriteSlot ⟨t, []⟩ .box 10 = true ∧ t.box.ilk = [⟨.box, rPwrRstcmd, word (1 * 2 ^ 16 + 1)⟩] ∧ t.box.rst = none ∧ t.box.rstNext = none
    ∧ Thread.reset.still = true ∧ ({ ptr0 with posts := [⟨0, 1, false⟩] } : Thread).still = false
    ∧ clustersOf (1#32).toNat = [0] ∧ (held .box rPwrRstcmd (word (1 * 2 ^ 32 + 2))).clusterLive 0 = true
    ∧ (held .box rPwrRstcmd (word (1 * 2 ^ 32 + 2))).clusterStill 0 = true ∧ (held .box rPwrRstcmd 4).yard.moves = []
    ∧ (∀ k, k < Config.clusters → (held .box rPwrRstcmd 4).clusterStill k = true) := by decide +kernel
theorem witness_supplies :
    let at_ := fun (p : Power) (n : Bool) => dev1.withBox (fun b => { b with power := p, resetN := n })
    dev1.box.resetN = true ∧ dev1.box.power = .on ∧ (at_ .held false).box.resetN = false ∧ (at_ .held false).box.power = .held ∧ 7 < 8
    ∧ (((0 : Nat) : Int) * 100 ≤ dev1.resetLevel 0) ∧ dev1.resetLevel 0 < ((5000 : Nat) : Int) * 100 ∧ (at_ .powerFail true).box.power = .powerFail
    ∧ (at_ .clockFault true).box.power = .clockFault ∧ (at_ .standby true).box.power = .standby ∧ dev1.box.power ≠ .standby
    ∧ dev1.box.power ≠ .off ∧ dev1.box.power ≠ .tripped := by decide +kernel

/-! ### Start, power, the mailbox, the Train Register, the ports and the sideband -/

def inPhase (n : Nat) : Dev := dev1.setRf rSbxStart 36 4 n
def passing : List Byte :=
  let sect := fun (t o n c : Nat) => leBytes 8 t ++ leBytes 8 o ++ leBytes 8 n ++ leBytes 4 c ++ leBytes 4 0
  ascii "RT96TTBL" ++ leBytes 2 1 ++ leBytes 2 0x9600 ++ leBytes 1 0xA1 ++ leBytes 1 1 ++ leBytes 2 2 ++ leBytes 8 77 ++ leBytes 4 64 ++ leBytes 4 0
    ++ leBytes 8 2368 ++ leBytes 8 5696 ++ List.replicate 208 0 ++ List.replicate 1952 0 ++ List.replicate 32 0
    ++ sect 1 2304 8 (crc32c (leBytes 8 9)) ++ sect 5 2368 0 (crc32c []) ++ leBytes 8 9 ++ List.replicate 56 0 ++ List.replicate 3328 0
/-- Every hypothesis about a start but that an image is accepted: whether a signature verifies is an open value of the model. -/
theorem witness_start :
    (Dev.reset.box.power = .off ∧ Dev.reset.box.resetN = true ∧ (Dev.reset.withBox (fun b => { b with resetN := false })).box.resetN = false)
    ∧ dev1.box.power ≠ .off ∧ (inPhase 1).box.power = .on ∧ (inPhase 1).phase = 1 ∧ (inPhase 5).phase = 5 ∧ (inPhase 2).phase = 2 ∧ dev1.phase ≠ 5
    ∧ imageError (inPhase 2).svFloor [] = some 1 ∧ (inPhase 2).box.slot1 = false ∧ ([] : List Byte).length ≤ 0x8000000 ∧ 0x8000000 ≤ 0x8000000
    ∧ ((inPhase 2).withBox (fun b => { b with slot1 := true })).box.slot1 = true ∧ ¬ 0x8000001 ≤ 0x8000000
    ∧ [1, 2, 3, 6, 11].all (fun k => decide (k ∈ [1, 2, 3, 6, 11])) = true ∧ (inPhase 5).ring.state ≠ .out ∧ Dev.reset.ring.state = .out := by decide +kernel
/-- An image that passes every check once its key's hash and its signature do; its device configuration is then found to be broken. -/
theorem witness_imagePasses (key : signerKeyOk passing = true) (sig : signatureOk passing = true) (floor : (inPhase 2).svFloor ≤ 64) :
    imageError (inPhase 2).svFloor passing = none ∧ (inPhase 2).loadImage (passing.take (imgSize passing)) = none := by
  refine ⟨?_, by decide +kernel⟩
  have h1 : magicOk passing = true := by decide +kernel
  have h2 : headerOk passing = true := by decide +kernel
  have h3 : directoryOk passing = true := by decide +kernel
  have h4 : kamrovKeyOk passing = true := by decide +kernel
  have h5 : (patchOk passing 1 && patchOk passing 2) = true := by decide +kernel
  have h6 : decryptOk passing = true := by decide +kernel
  have h7 : ¬ passing.length < imgSize passing := by decide +kernel
  have h8 : ¬ imgSvn passing < (inPhase 2).svFloor := by
    have : imgSvn passing = 64 := by decide +kernel
    omega
  simp [imageError, h1, h2, h3, h4, h5, h6, h7, h8, key, sig]

def powered (vstep : Nat) (avs caution : Bool) : Dev := (dev1.withBox (fun b => { b with vstep := vstep, avs := avs })).setRb rPwrStatus 2 caution
def napper (napen : Bool) : Dev := (dev1.withYard (fun _ => Yard.reset)).setRb rPwrNapen 0 napen
def sensors (m : Int) : List Int := List.replicate 39 (-8) ++ [m]
theorem witness_power :
    dev1.box.power = .on ∧ ((0 : Nat) : Int) * 100 < dev1.warnLevel 7 ∧ dev1.rb rPwrStatus 2 = false ∧ dev1.box.thermal ≤ 3
    ∧ dev1.warnLevel 7 ≤ ((5000 : Nat) : Int) * 100
    ∧ (powered 0 false true).rb rPwrStatus 2 = true ∧ Nat.max ((powered 0 false true).rf rPwrCtl 0 2) (powered 0 false true).box.thermal = (powered 0 false true).box.vstep
    ∧ (powered 0 false true).box.avs = false ∧ (powered 0 true false).box.avs = true ∧ (powered 0 true false).rb rPwrStatus 2 = false
    ∧ Nat.max ((powered 0 true false).rf rPwrCtl 0 2) (powered 0 true false).box.thermal = (powered 0 true false).box.vstep
    ∧ (sensors 840).length = 40 ∧ dev1.box.power ≠ .off ∧ (∀ i, i < 40 → (sensors 840).getD i 0 + dev1.calEff i ≤ 840)
    ∧ (sensors 840).getD 39 0 + dev1.calEff 39 = 840 ∧ thermalThreshold 3 ≤ 840 ∧ (752 : Int) ≤ thermalThreshold 1 - 24 ∧ thermalThreshold 1 - 24 < 753
    ∧ (∀ k, k < 4 → 1 ≤ k → k ≤ (dev1.withBox (fun b => { b with thermal := 3 })).box.thermal)
    ∧ (napper true).clusterLive 0 = true ∧ (napper true).rb rPwrNapen 0 = true ∧ (napper true).homed 0 = 0 ∧ (napper true).resetting 0 = false
    ∧ (∀ l, l < 96 → ((napper true).thread l).run = .free ∧ ((napper true).thread l).still = true) ∧ (napper false).rb rPwrNapen 0 = false
    ∧ ((napper false).setCluster 0 { Cluster.reset with released := true, napping := true }).rb rPwrNapen 0 = false
    ∧ dev1.clusterLive (11 / 12) = true ∧ 11 ∉ dev1.gated ∧ (∀ i, i < 8 → (dev1.thread (8 * 11 + i)).run ≠ .running)
    ∧ ((dev1.setThread 88 sup0).thread (8 * 11 + 0)).run = .running ∧ ((dev1.setThread 95 { Thread.reset with irqs := [⟨false, 64, 5⟩] }).thread (8 * 11 + 7)).irqs ≠ []
    := by decide +kernel

def mailed (j : MbxJob) : Dev := (dev1.setMbx 1 (some j)).setRb (rPciMbxCmd 1) 0 true
def timed (deadline period : Nat) : Dev := dev1.setTimer 127 ⟨true, deadline, period⟩
def upset (l : List Nat) : Dev := { dev1 with mem := { dev1.mem with hbmUpset := [(2, l)] } }
theorem witness_mailbox :
    State.mayWriteSlot ⟨dev1, []⟩ .box 15 = true ∧ dev1.rb (rPciMbxCmd 1) 0 = false ∧ dev1.mbx 1 = none
    ∧ dev1.pcieUp 1 = false ∧ State.mayWriteSlot ⟨dev1.setPcieLink 1 true, []⟩ .box 15 = true ∧ (dev1.setPcieLink 1 true).rb (rPciMbxCmd 1) 0 = false
    ∧ (dev1.setPcieLink 1 true).mbx 1 = none ∧ (dev1.setPcieLink 1 true).pcieUp 1 = true
    ∧ (mailed ⟨1, some (clean (leBytes 16 5)), 0⟩).mbx 1 = some ⟨1, some (clean (leBytes 16 5)), 0⟩ ∧ (mailed ⟨1, none, 0⟩).mbx 1 = some ⟨1, none, 0⟩
    ∧ (mailed ⟨2, none, 0⟩).mbx 1 = some ⟨2, none, 0⟩ ∧ (mailed ⟨3, none, 0⟩).mbx 1 = some ⟨3, none, 0⟩ ∧ (mailed ⟨3, none, 0⟩).box.rngStopped = false
    ∧ ((mailed ⟨3, none, 0⟩).withBox (fun b => { b with rngStopped := true })).box.rngStopped = true
    ∧ (mailed ⟨3, none, 0⟩).quoteTurn 1 ⟨3, none, 0⟩ = true ∧ ((mailed ⟨3, none, 0⟩).withBox (fun b => { b with rngStopped := true })).quoteTurn 1 ⟨3, none, 0⟩ = true
    ∧ ((mailed ⟨3, none, 1⟩).setMbx 0 (some ⟨3, none, 0⟩)).mbx 1 = some ⟨3, none, 1⟩
    ∧ ((mailed ⟨3, none, 1⟩).setMbx 0 (some ⟨3, none, 0⟩)).quoteTurn 1 ⟨3, none, 1⟩ = false
    ∧ dev1.inService = true ∧ (dev1.setRb rMicCtl 1 true).rb rMicCtl 1 = true ∧ dev1.rb rMicCtl 1 = true ∧ (dev1.setRb rMicCtl 1 false).rb rMicCtl 1 = false
    ∧ 0x1AD2747FFF < Config.hbmEnd ∧ (∃ k, k < 16 ∧ hbmDecode (upset [3]) 2 ((upset [3]).hbmUps 2) ((upset [3]).lineMarked 2) = .corrected k)
    ∧ hbmDecode (upset (List.range 17)) 2 ((upset (List.range 17)).hbmUps 2) ((upset (List.range 17)).lineMarked 2) = .uncorrectable
    ∧ (timed 0 0).box.power = .on ∧ ((timed 0 0).timer 127).en = true ∧ ((timed 0 0).timer 127).deadline ≤ (timed 0 0).now ∧ ((timed 0 0).timer 127).period = 0
    ∧ ((timed 0 5).timer 127).period ≠ 0 ∧ (timed 1 5).now < ((timed 1 5).timer 127).deadline
    ∧ agentExists .sideband = true ∧ dev1.box.rngStopped = false ∧ State.mayWriteSlot ⟨dev1, []⟩ .box 9 = true
    ∧ (dev1.withRing (fun r => { r with state := .resync })).ring.state = .resync ∧ ring0.ring.state = .member := by decide +kernel

theorem test_rng_reseed : ((dev1.withBox (fun b => { b with rngReqs := 2 ^ 20 - 1 })).rngRequest).box.rngReqs = 0 := by decide +kernel

def trained (tstate rstate : Nat) (g : Trg := { Trg.reset with clusters := 1 }) (ctl : Word := 0x3000000) : Dev :=
  ({ dev1 with trg := g }.setTrgState tstate).setRstate rstate |>.setReg rTrgCtl ctl
def pend0 : TrigPend := ⟨5, 0xFF, 0xFF, 0, 0, 0⟩
def frozen0 : Frozen := ⟨pend0, 7, 4, [(0, ⟨0, [], []⟩)]⟩
def trg0 (p : Option TrigPend) (f : Option Frozen) (x : Replay := .reset) : Trg := { Trg.reset with clusters := 1, pend := p, frozen := f, replay := x }
def rec0 (kind : Nat) : CapRec := ⟨9, kind, 0, 0, 0, []⟩
/-- A command of TRG_EXP_CTL in progress, for the clusters of a mask. -/
def moving (d : Dev) (isImport : Bool) (mask : Nat) : Dev := d.setReg rTrgExpCtl (word (1 + isImport.toNat * 8 + mask * 2 ^ 32))
theorem witness_train :
    let s := fun (d : Dev) => (⟨d, []⟩ : State)
    (s dev1).mayWriteSlot .box 11 = true ∧ (trained 1 0).trgState = 1 ∧ (trained 1 0).trg.pend = none ∧ (trained 1 0).rb rTrgCtl 24 = true
    ∧ (trained 1 0).rb rTrgCtl 25 = true ∧ (trained 1 0).inService = true ∧ (trained 0 0).trgState ≠ 1 ∧ (trained 0 0).trgState ≠ 3 ∧ (trained 3 0).trgState = 3
    ∧ dev1.rb rTrgExpCtl 0 = false ∧ (trained 2 0 (trg0 none (some frozen0))).trgState = 2 ∧ (trained 2 0 (trg0 none (some frozen0))).trg.frozen = some frozen0
    ∧ (trained 1 0).trgState ≠ 2 ∧ (trained 4 1).rstate = 1 ∧ (trained 1 0).rstate ≠ 1 ∧ (trained 1 0).rstate = 0 ∧ (trained 1 0).homed 1 = 0
    ∧ (dev1.setTrack acct5 { Track.reset with state := .settled, home := 1 }).homed 1 ≠ 0
    ∧ (trained 4 1 (trg0 none none { Replay.reset with imported := true, len := 16 })).trg.replay.imported = true ∧ 16 ≤ 16
    ∧ (trained 4 1).trg.replay.imported = false ∧ (trained 4 2).rstate = 2 ∧ (trained 4 4).rstate = 4 ∧ (trained 4 5).rstate = 5 ∧ (trained 4 1).rstate ≠ 2
    ∧ 0x100000 ≤ ((trained 4 2).setReg rTrgRplBase 0x100000).rf rTrgRplBase 12 36 * 4096
    ∧ ((trained 4 2).setReg rTrgRplBase 0x1AD2748000).rf rTrgRplBase 12 36 * 4096 ≤ Config.hbmEnd
    ∧ ((trained 4 3).cluster ((trained 4 3).rf rTrgRplCtl 8 5)).napping = false
    ∧ pend0.due ≤ (trained 1 0).now ∧ (trained 1 0 (trg0 (some { pend0 with due := 255000 }) none)).trg.pend = some { pend0 with due := 255000 }
    ∧ (trained 1 0).now < 255000 ∧ (trained 1 0 (trg0 (some pend0) none)).trg.pend = some pend0 ∧ (∀ m ∈ clustersOf 1, ((trained 1 0).cluster m).held = false)
    ∧ (((trained 1 0).setCluster 0 { dev1.cluster 0 with held := true }).cluster 0).held = true
    ∧ ((trained 1 0).setCluster 0 { dev1.cluster 0 with held := true }).clusterQuiet 0 = true
    ∧ ((trained 1 0).setCluster 0 { dev1.cluster 0 with held := true }).capturing 0 = true
    ∧ SMap.wf (fun _ => Thread.reset) ((trained 1 0).setCluster 0 { dev1.cluster 0 with held := true }).thr = true ∧ (dev1.cluster 31).held = false := by
  decide +kernel
/-- A bundle of one part of 16 bytes, for the Timetable in force. -/
def imported : Dev := { (trained 4 1).setReg rTrgRplBase 0x100000 with
  tt := { dev1.tt with digest := leBytes 32 0, cpDigest := leBytes 32 0, clpDigest := leBytes 32 0 } }
def bundle1 : List Byte :=
  leBytes 8 0 ++ leBytes 2 1 ++ leBytes 2 0x9600 ++ leBytes 4 0xA1 ++ List.replicate 240 0 ++ leBytes 8 4096 ++ leBytes 8 16 ++ leBytes 8 0 ++ leBytes 8 99
    ++ List.replicate 3808 0 ++ leBytes 16 3
theorem witness_bundles :
    let e := moving (trained 3 0 (trg0 none (some frozen0))) false 0
    let i := moving imported true 1
    e.rb rTrgExpCtl 0 = true ∧ e.rb rTrgExpCtl 3 = false ∧ e.trg.frozen = some frozen0 ∧ e.trgState = 3
    ∧ (e.bundleBytes frozen0 (e.rf rTrgExpCtl 32 32)).length ≤ 4096 ∧ ([(0, 64)] : List (Nat × Nat)).length = 1
    ∧ (([(0x1000, 64)] : List (Nat × Nat)).map (fun e => e.2)).sum < (e.bundleBytes frozen0 (e.rf rTrgExpCtl 32 32)).length
    ∧ i.rb rTrgExpCtl 0 = true ∧ i.rb rTrgExpCtl 3 = true ∧ clustersOf (i.rf rTrgExpCtl 32 32) = [0]
    ∧ (([(0x1000, 4095)] : List (Nat × Nat)).map (fun e => e.2)).sum < 4096 ∧ 4096 ≤ (([(0x1000, 4000), (0x9000, 112)] : List (Nat × Nat)).map (fun e => e.2)).sum
    ∧ ofLe ((bundle1.drop 256).take 8) + ofLe ((bundle1.drop 264).take 8) ≤ (([(0x1000, 4000), (0x9000, 112)] : List (Nat × Nat)).map (fun e => e.2)).sum
    ∧ ofLe ((bundle1.drop 8).take 2) = 1 ∧ ofLe ((bundle1.drop 10).take 2) = 0x9600 ∧ ofLe ((bundle1.drop 12).take 1) = 0xA1
    ∧ (bundle1.drop 16).take 96 = i.tt.digest ++ i.tt.cpDigest ++ i.tt.clpDigest ∧ ofLe ((bundle1.drop 256).take 8) ≠ 0
    ∧ 0x100000 ≤ i.rf rTrgRplBase 12 36 * 4096 ∧ i.rf rTrgRplBase 12 36 * 4096 + ofLe ((bundle1.drop 264).take 8) ≤ Config.hbmEnd := by decide +kernel
def runs (recs : List CapRec) (goAt : Nat) (stopat : Word) : Dev :=
  (trained 4 3 (trg0 none none { Replay.reset with recs := recs, goAt := goAt, endAt := 50 })).setReg rTrgRplStopat stopat
theorem witness_replay :
    (runs [] 0 0).rstate = 3 ∧ (runs [] 0 0).trg.replay.recs = [] ∧ (runs [] 0 0).rb rTrgRplStopat 63 = false
    ∧ (runs [rec0 1] 0 0x8000000000000009).trg.replay.recs = [rec0 1] ∧ (runs [rec0 1] 0 0x8000000000000009).rb rTrgRplStopat 63 = true
    ∧ (runs [rec0 1] 0 0x8000000000000009).trg.replay.goAt < (runs [rec0 1] 0 0x8000000000000009).rf rTrgRplStopat 0 48
    ∧ (runs [rec0 1] 0 0x8000000000000009).rf rTrgRplStopat 0 48 ≤ (rec0 1).stamp ∧ (rec0 2).isResponse = true ∧ (rec0 1).isResponse = false := by decide +kernel

def ptp0 : PtpIn := ⟨true, true, 100, leBytes 16 7⟩
def ptpD (ctl idx : Word) : Dev := (dev1.setReg (rEthPtpctl 0) ctl).setReg (rEthPtprxidx 0) idx
theorem witness_ports :
    let s : State := ⟨dev1, []⟩
    (ptpD 0x4001 0x3F00000000).classify 0 (.ptp ptp0) = .ptp ∧ (ptpD 0x4001 0x3F00000000).rf (rEthPtpctl 0) 14 34 * 2 ^ 14 + 0x4000 ≤ Config.hbmEnd
    ∧ (match (ptpD 0x4001 0x4000000000).classify 0 (.ptp ptp0) with | .drop _ _ => true | _ => false) = true
    ∧ s.mayWriteSlot .box 16 = true ∧ dev1.rb (rEthPtpctl 0) 0 = false ∧ bit (0x4001 : Word) 0 = true
    ∧ fld (0x4001 : Word) 14 34 * 2 ^ 14 + 0x4000 ≤ Config.hbmEnd ∧ Config.hbmEnd < fld (0xFFFFFFFFC001 : Word) 14 34 * 2 ^ 14 + 0x4000
    ∧ ((ptpD 0 0x4000000000).rf (rEthPtprxidx 0) 32 32 + 2 ^ 32 - (0#32).toNat) % 2 ^ 32 ≤ 64
    ∧ 64 < ((ptpD 0 0x4000000000).rf (rEthPtprxidx 0) 32 32 + 2 ^ 32 - (65#32).toNat) % 2 ^ 32 ∧ dev1.rb (rEthPtptxcmd 0) 0 = false
    ∧ fld (0x3B000000000001 : Word) 48 8 < 60 ∧ 240 < fld (0xF1000000000001 : Word) 48 8 ∧ 60 ≤ fld (0x3C000000000001 : Word) 48 8 ∧ fld (0xF0000000000001 : Word) 48 8 ≤ 240
    ∧ dev1.rf (rEthPtptxaddr 0) 3 45 * 8 + 240 ≤ Config.hbmEnd ∧ dev1.hears 0 = true ∧ bit (0x3C000000000001 : Word) 2 = false
    ∧ anyPoison (dev1.readBytes 0 60) = false ∧ (dev1.setReg (rEthStatus 0) 0).hears 0 = false ∧ dev1.inService = true ∧ (dev1.portCfg 0).mode ≠ 0
    ∧ (dev1.portCfg 1).mode = 0 ∧ dev1.sidebandUp = true
    ∧ (placeOf 0x9010).reg = 0x9010 ∧ (placeOf 0x9010).window = false ∧ 0x9010 ≠ rSbxRng ∧ 0x9010 ≠ rClkTod ∧ 0x9010 / 4096 = 9
    ∧ (0xB000 / 4096 ≠ 9 ∧ 0xB000 / 4096 ≠ 10 ∧ 0xB000 / 4096 ≠ 12) ∧ 0x9014 % 8 ≠ 0 ∧ Dev.reset.sidebandUp = false ∧ dev1.box.power = .on ∧ dev1.gated = []
    ∧ (dev1.withBox (fun b => { b with resetN := false })).box.resetN = false ∧ dev1.box.resetN = true ∧ Dev.reset.inService = false := by decide +kernel
end Sys2Proof.Tests
end

/-! ## Scope: a command completes exactly where the device has the units it names

Every meaning is one call of `onUnit` or of an operation built on it, and the condition of that call is the command's
well-formedness. A queue of well-formed commands therefore runs to its end. -/
namespace Sys2Proof.Machine

open Sys2Proof Sys2Proof.WellFormed

/-- The outcome `o` of a command on `s`: completion with the queue as it was where the device has the units named (`ok`), and
otherwise the fault `noSuchUnit`. DESIGN CHOICE, assumption 9. -/
def CompletesIff (ok : Bool) (s : State) (o : Host.Outcome State Fault Refusal) : Prop :=
  (ok = true → ∃ d, o = .next (s.withDev d)) ∧ (ok = false → o = .fault .noSuchUnit)

/-! ### The operations that commands are made of -/

theorem completesIff_onUnit (ok : Bool) (s : State) (f : Dev → Dev) : CompletesIff ok s (onUnit ok s f) := by
  obtain ⟨rfl, h⟩ | ⟨rfl, h⟩ := onUnit_cases ok s f
  · exact ⟨fun _ => ⟨f s.dev, h⟩, nofun⟩
  · exact ⟨nofun, fun _ => h⟩

theorem completesIff_onDev (s : State) (f : Dev → Dev) : CompletesIff true s (onDev s f) := completesIff_onUnit true s f

theorem completesIff_threadEvent (g : Nat) (s : State) (f : Nat → Dev → Dev) :
    CompletesIff (WellFormed.thread g) s (threadEvent g s f) := completesIff_onUnit _ s _

theorem agentExists_eq_agent (a : Agent) : agentExists a = agent a := by cases a <;> rfl

theorem completesIff_onAgent (a : Agent) (s : State) (f : Dev → Dev) : CompletesIff (agent a) s (onAgent a s f) :=
  agentExists_eq_agent a ▸ completesIff_onUnit (agentExists a) s f

/-- A command of an agent about a further unit: a PCIe controller (R458) or an Ethernet port (R555). -/
theorem completesIff_onUnit_agent (a : Agent) (ok : Bool) (s : State) (f : Dev → Dev) :
    CompletesIff (agent a && ok) s (onUnit (agentExists a && ok) s f) :=
  agentExists_eq_agent a ▸ completesIff_onUnit (agentExists a && ok) s f

/-! ### Every command -/

/-- Every arm of `exec` asks for just the units that `Instr.wellFormed` asks for. -/
theorem exec_completesIff (i : Instr) (s : State) : CompletesIff i.wellFormed s (exec i s) := by
  cases i with
  -- events and instructions of a thread (R13, R125)
  | add | adc | sub | sbc | and | or | xor | andn | shl | shr | sar | mul | mulh | mulhu | div | divu | addi | subi | andi | ori | xori
  | movk | shi | ld | st | aadd | aswp | acas | aand | aor | bc | br | jmpr | callw | callwr | retw | mfs | mts | ldm | stm | loop | rep
  | dadd | dsub | dmul | ddiv | dcmp | dmac | dshf | dlda | dsta | dpack | dunpk | dcvb | dcvd | dtst | movs | movt | cmps | scan | sctb
  | edit | edloc | move | movte | ste | fadd | fsub | fmul | fdiv | fsqrt | fma | fcmp | fmov | fneg | fabs | fquant | fcvt | fcvti | fcvif
  | fmvfx | fmvxf | fbar | fld | fst | fldp | fstp | scall | sret | retx | fence | release | trig | brk | hint | post | modeChangeCommit
  | instructionLineFetch | exceptionEntry | interruptEntry =>
    exact completesIff_threadEvent _ s _
  -- events of the device as a whole: every one completes
  | postExecute | postResult | ackCoalesceExpiry | recordBufferRoom | egressAckQueueSpace | journalFrame | stateFrame | epochackFrame
  | heartbeatFrame | transferFrame | outcomeFrame | membershipFrame | cutoverFrame | linkackFrame | badFrame | linkResendTimeout | linkIdle
  | silenceLoss | linkdownExpiry | joinTimeout | llWatchdog | throughLineSwitched | interlockTimeout | rwsApply | scrubRead | warmStart
  | hbmTrainingDone | imageReadDone | imageSlotFailure | exportImportDone | replayRecord | extest | epochBoundary | signPeriodMark
  | chainSignature | rngHealthFail | powerDown | powerFailRestart | clockFaultReset | pllRelock | clusterRelease | wake | cautionExit
  | vcoreSetpointReported | thermtrip | ppsInEdge | ppsOutEdge | trigInEdge | freezeInstant | sidebandStatus =>
    unfold exec -- else the unifier runs past `onDev`
    exact completesIff_onDev s _
  -- writes and reads of an agent (R433)
  | registerWrite | bitAliasWrite | interlockValueWrite | cfgLockWrite | snpGo | cfgIrtDataWrite | cfgSwi | qmKdbWrite | kernelQueueReset
  | pinCommand | unpinCommand | yrdForbidWrite | yrdSnapGo | jnlQdataWrite | lineUpdate | leave | force | heal | threadRestart
  | clusterReset | deviceSoftReset | standbyEntry | clkTodstep | sbxRngRead | freeze | rearm | trainExport | trainImport | replayEnter
  | replayLoad | replayGo | replayDump | replayExit =>
    exact completesIff_onAgent _ s _
  -- commands of an agent about a PCIe controller or an Ethernet port (R458, R555)
  | sync | identity | quote | ptpRxEnable | ptpRxHeadWrite | ptpTx =>
    exact completesIff_onUnit_agent _ _ s _
  -- a journal queue (R65, R66), which the model and `Instr.wellFormed` name apart
  | journalQueueDelivery =>
    exact completesIff_onUnit (isJournalQueue _) s _
  -- a unit named by its number (R12); for the thermal sensors, one reading of each (R549)
  | floatingOpComplete | storeBufferDrain | interruptPending | lineFill | writeGrant | lineInvalidation | consistDispatch | moveComplete
  | holdDrain | recordsDatagram | creditRequest | arpRequest | neighbourSolicitation | frameDrop | queueDoorbell | queueDescriptorWrite
  | submitEntryTake | portTrained | portLossOfSignal | mailboxCommandDone | functionLevelReset | perstN | pcieLinkUp | pcieLinkDown
  | checkpoint | coldStart | powerFailReset | cautionEntry | thermalSensorRead | napEntry | napExit | dozeEntry | dozeExit | timerExpiry
  | ptpFrameReceived | sidebandRead | ethLinkUp | ethLinkDown =>
    exact completesIff_onUnit _ s _

/-- Settles O3, by the unit that each command's arm of `exec` asks for. The fault on a unit the device does not have is
assumption 9; that a command which is not admitted is consumed, and so completes, is assumption 7. -/
theorem wellFormedCommandsComplete : Obligations.WellFormedCommandsComplete := exec_completesIff

/-! ### The queue -/

theorem exec_next_of_wellFormed {i : Instr} (h : i.wellFormed = true) (s : State) : ∃ d, exec i s = .next (s.withDev d) :=
  (exec_completesIff i s).1 h

@[simp] theorem State.withDev_pending (s : State) (d : Dev) : (s.withDev d).pending = s.pending := rfl

@[simp] theorem idleTick_pending (s : State) : (idleTick s).pending = s.pending := by
  unfold idleTick; split <;> rfl

/-- A step on a queue of well-formed commands does not stop, and takes at most the front command from the queue. -/
theorem step_next_of_queueWf {s : State} (h : s.queueWf = true) : ∃ t, step s = .next t ∧ t.pending = s.pending.tail := by
  match s, h with
  | ⟨d, []⟩, _ => exact ⟨idleTick ⟨d, []⟩, rfl, idleTick_pending _⟩
  | ⟨d, c :: rest⟩, h =>
    have hc : c.wellFormed = true := List.all_eq_true.1 h c List.mem_cons_self
    obtain ⟨d', hd⟩ := exec_next_of_wellFormed hc ⟨d, rest⟩
    exact ⟨_, hd, State.withDev_pending _ d'⟩

theorem queueWf_of_pending_tail {s t : State} (h : s.queueWf = true) (ht : t.pending = s.pending.tail) : t.queueWf = true := by
  unfold State.queueWf at h ⊢
  rw [ht]
  exact List.all_eq_true.2 fun c hc => List.all_eq_true.1 h c (List.mem_of_mem_tail hc)

theorem run_succ_of_step {s t : State} (h : step s = .next t) (k : Nat) : core.run (k + 1) s = core.run k t := by
  have hs : core.step s = .next t := h
  simp only [Host.Core.run, hs]

/-- A queue of `n` well-formed commands is empty after `n` steps. -/
theorem run_empties_queue (n : Nat) (s : State) (h : s.queueWf = true) (hn : s.pending.length = n) :
    ∃ t : State, core.run n s = .next t ∧ t.pending = [] := by
  induction n generalizing s with
  | zero => exact ⟨s, rfl, List.length_eq_zero_iff.1 hn⟩
  | succ n ih =>
    obtain ⟨t, hst, ht⟩ := step_next_of_queueWf h
    have hlen : t.pending.length = n := by rw [ht, List.length_tail, hn, Nat.add_sub_cancel]
    rw [run_succ_of_step hst]
    exact ih t (queueWf_of_pending_tail h ht) hlen

/-- Settles O4, by induction on the number of commands that wait. -/
theorem queueRunsToItsEnd : Obligations.QueueRunsToItsEnd := by
  intro s h
  obtain ⟨t, hst, ht⟩ := step_next_of_queueWf h
  exact ⟨⟨t, hst, queueWf_of_pending_tail h ht, ht⟩, run_empties_queue _ s h rfl⟩

end Sys2Proof.Machine

/-! ## Fields of a word, and registers of control space after a write -/
namespace Sys2Proof.Machine

open Sys2Proof

/-! ### Fields and bits of a word -/

/-- A written field, bit by bit. -/
theorem getLsbD_setFld (w : Word) (lo n v i : Nat) :
    (setFld w lo n v).getLsbD i = if lo ≤ i ∧ i < lo + n then decide (i < 64) && v.testBit (i - lo) else w.getLsbD i := by
  unfold setFld
  simp only [BitVec.getLsbD_or, BitVec.getLsbD_and, BitVec.getLsbD_not, BitVec.getLsbD_ofNat, Nat.testBit_mul_two_pow,
    Nat.testBit_two_pow_sub_one, Nat.testBit_mod_two_pow]
  by_cases hi : i < 64
  · by_cases h : lo ≤ i
    · by_cases hn : i < lo + n
      · have hs : i - lo < n := by omega
        simp [hi, h, hn, hs]
      · have hs : ¬ i - lo < n := by omega
        simp [hi, h, hn, hs]
    · simp [hi, h]
  · simp [hi, BitVec.getLsbD_of_ge _ _ (Nat.le_of_not_lt hi)]

theorem testBit_fld (w : Word) (lo n i : Nat) : (fld w lo n).testBit i = (decide (i < n) && w.getLsbD (lo + i)) := by
  unfold fld
  rw [Nat.testBit_mod_two_pow, Nat.testBit_div_two_pow, BitVec.getLsbD, Nat.add_comm]

theorem fld_setFld_same (w : Word) {lo n : Nat} (v : Nat) (h : lo + n ≤ 64) : fld (setFld w lo n v) lo n = v % 2 ^ n := by
  refine Nat.eq_of_testBit_eq fun i => ?_
  rw [testBit_fld, getLsbD_setFld, Nat.testBit_mod_two_pow]
  by_cases hi : i < n
  · have h1 : lo + i < lo + n := by omega
    have h2 : lo + i < 64 := by omega
    simp [hi, h1, h2]
  · simp [hi]

/-- A field that shares no bit with the one written. -/
theorem fld_setFld_apart (w : Word) {lo n lo' n' : Nat} (v : Nat) (h : lo' + n' ≤ lo ∨ lo + n ≤ lo') :
    fld (setFld w lo n v) lo' n' = fld w lo' n' := by
  refine Nat.eq_of_testBit_eq fun i => ?_
  rw [testBit_fld, testBit_fld, getLsbD_setFld]
  by_cases hi : i < n'
  · rw [if_neg (by omega)]
  · simp [hi]

theorem bit_setFld_apart (w : Word) {lo n i : Nat} (v : Nat) (h : i < lo ∨ lo + n ≤ i) : bit (setFld w lo n v) i = bit w i := by
  unfold bit; rw [getLsbD_setFld, if_neg (by omega)]

theorem bit_setFld_bit (w : Word) {i : Nat} (b : Bool) (h : i < 64) : bit (setFld w i 1 b.toNat) i = b := by
  unfold bit; rw [getLsbD_setFld, if_pos (by omega)]; cases b <;> simp [h]

/-! ### Registers -/

theorem Dev.reg_setRf (d : Dev) (o lo n v p : Nat) : (d.setRf o lo n v).reg p = if p = o then setFld (d.reg o) lo n v else d.reg p :=
  Dev.reg_setReg _ _ _ _

@[simp] theorem Dev.reg_setRf_same (d : Dev) (o lo n v : Nat) : (d.setRf o lo n v).reg o = setFld (d.reg o) lo n v := Dev.reg_setReg_same _ _ _

theorem Dev.reg_setRf_ne (d : Dev) {o p : Nat} (lo n v : Nat) (h : p ≠ o) : (d.setRf o lo n v).reg p = d.reg p := by
  rw [Dev.reg_setRf, if_neg h]
theorem Dev.reg_setRb_ne (d : Dev) {o p : Nat} (i : Nat) (b : Bool) (h : p ≠ o) : (d.setRb o i b).reg p = d.reg p := Dev.reg_setRf_ne d _ _ _ h
theorem Dev.reg_count_ne (d : Dev) {o p : Nat} (lo n k : Nat) (h : p ≠ o) : (d.count o lo n k).reg p = d.reg p := Dev.reg_setRf_ne d _ _ _ h

theorem Dev.rf_setRf_same (d : Dev) (o : Nat) {lo n : Nat} (v : Nat) (h : lo + n ≤ 64) : (d.setRf o lo n v).rf o lo n = v % 2 ^ n := by
  unfold Dev.rf; rw [Dev.reg_setRf_same, fld_setFld_same _ _ h]
theorem Dev.rf_setRf_apart (d : Dev) (o : Nat) {lo n lo' n' : Nat} (v : Nat) (h : lo' + n' ≤ lo ∨ lo + n ≤ lo') :
    (d.setRf o lo n v).rf o lo' n' = d.rf o lo' n' := by
  unfold Dev.rf; rw [Dev.reg_setRf_same, fld_setFld_apart _ _ h]
theorem Dev.rb_setRf_apart (d : Dev) (o : Nat) {lo n i : Nat} (v : Nat) (h : i < lo ∨ lo + n ≤ i) : (d.setRf o lo n v).rb o i = d.rb o i := by
  unfold Dev.rb; rw [Dev.reg_setRf_same, bit_setFld_apart _ _ h]

theorem Dev.rb_setRb_same (d : Dev) (o : Nat) {i : Nat} (b : Bool) (h : i < 64) : (d.setRb o i b).rb o i = b := by
  unfold Dev.setRb Dev.rb; rw [Dev.reg_setRf_same, bit_setFld_bit _ _ h]
theorem Dev.rb_setRb_apart (d : Dev) (o : Nat) {i k : Nat} (b : Bool) (h : k ≠ i) : (d.setRb o i b).rb o k = d.rb o k :=
  Dev.rb_setRf_apart d o _ (by omega)
theorem Dev.rf_setRb_apart (d : Dev) (o : Nat) {i lo n : Nat} (b : Bool) (h : lo + n ≤ i ∨ i < lo) : (d.setRb o i b).rf o lo n = d.rf o lo n :=
  Dev.rf_setRf_apart d o _ h

/-- A counter holds a value of its width, which the saturated sum does not exceed. -/
theorem Dev.rf_count_same (d : Dev) (o : Nat) {lo n : Nat} (k : Nat) (h : lo + n ≤ 64) :
    (d.count o lo n k).rf o lo n = sat (2 ^ n - 1) (d.rf o lo n + k) := by
  unfold Dev.count
  rw [Dev.rf_setRf_same d o _ h, Nat.mod_eq_of_lt]
  have := Nat.two_pow_pos n
  unfold sat; split <;> omega
theorem Dev.rb_count_apart (d : Dev) (o : Nat) {lo n i : Nat} (k : Nat) (h : i < lo ∨ lo + n ≤ i) : (d.count o lo n k).rb o i = d.rb o i :=
  Dev.rb_setRf_apart d o _ h

/-- Equal registers have equal fields and bits. -/
theorem Dev.rf_congr {d e : Dev} {o : Nat} (h : e.reg o = d.reg o) (lo n : Nat) : e.rf o lo n = d.rf o lo n := by unfold Dev.rf; rw [h]
theorem Dev.rb_congr {d e : Dev} {o : Nat} (h : e.reg o = d.reg o) (i : Nat) : e.rb o i = d.rb o i := by unfold Dev.rb; rw [h]

end Sys2Proof.Machine

/-! ## What an operation on memory, on the hub and on the Yard leaves alone

A write of memory changes the memories, the stores' lines, the Train Register, the repeat table, and the registers of the memory
blocks (MIC_ and HBMh_); an operation on a queue changes the hub and the memories. Both leave the threads, the Signal Box, the
Timetable and every other register as they were, and the Yard too. -/
namespace Sys2Proof.Machine

open Sys2Proof

/-- The register at `o` is one of MIC_ or HBMh_ (R423-R429). -/
def memoryBlock (o : Nat) : Bool := decide (o / 4096 = 7 ∨ (24 ≤ o / 4096 ∧ o / 4096 < 28))

theorem memoryBlock_hbmErr {h : Nat} (hh : h < 4) : memoryBlock (rHbmErr h) = true := by
  unfold memoryBlock rHbmErr; exact decide_eq_true (by omega)
theorem memoryBlock_hbmWrlines {h : Nat} (hh : h < 4) : memoryBlock (rHbmWrlines h) = true := by
  unfold memoryBlock rHbmWrlines; exact decide_eq_true (by omega)

/-- `e` has the threads, the Signal Box and the Timetable of `d`, and its registers outside the memory blocks. -/
structure Dev.Steady (d e : Dev) : Prop where
  thr : e.thr = d.thr
  box : e.box = d.box
  tt : e.tt = d.tt
  reg : ∀ o, memoryBlock o = false → e.reg o = d.reg o

/-- The same, with the Yard of `d`. -/
structure Dev.SteadyYard (d e : Dev) : Prop extends Dev.Steady d e where
  yard : e.yard = d.yard

theorem Dev.Steady.refl (d : Dev) : d.Steady d := ⟨rfl, rfl, rfl, fun _ _ => rfl⟩
theorem Dev.Steady.trans {d e f : Dev} (h : d.Steady e) (k : e.Steady f) : d.Steady f :=
  ⟨k.thr.trans h.thr, k.box.trans h.box, k.tt.trans h.tt, fun o ho => (k.reg o ho).trans (h.reg o ho)⟩
theorem Dev.SteadyYard.refl (d : Dev) : d.SteadyYard d := ⟨.refl d, rfl⟩
theorem Dev.SteadyYard.trans {d e f : Dev} (h : d.SteadyYard e) (k : e.SteadyYard f) : d.SteadyYard f :=
  ⟨h.toSteady.trans k.toSteady, k.yard.trans h.yard⟩

theorem Dev.Steady.foldl {α : Type} (f : Dev → α → Dev) (h : ∀ (e : Dev) (a : α), e.Steady (f e a)) (l : List α) (d : Dev) : d.Steady (l.foldl f d) :=
  foldl_keeps d.Steady f (fun _ _ he => he.trans (h _ _)) l d (.refl d)
theorem Dev.SteadyYard.foldl {α : Type} (f : Dev → α → Dev) (h : ∀ (e : Dev) (a : α), e.SteadyYard (f e a)) (l : List α) (d : Dev) :
    d.SteadyYard (l.foldl f d) :=
  foldl_keeps d.SteadyYard f (fun _ _ he => he.trans (h _ _)) l d (.refl d)

theorem Dev.Steady.thread {d e : Dev} (h : d.Steady e) (g : Nat) : e.thread g = d.thread g := by unfold Dev.thread; rw [h.thr]
theorem Dev.SteadyYard.track {d e : Dev} (h : d.SteadyYard e) (t : Nat) : e.track t = d.track t := by unfold Dev.track; rw [h.yard]

/-! ### Memory -/

theorem Dev.steady_setReg (d : Dev) {o : Nat} (v : Word) (h : memoryBlock o = true) : d.SteadyYard (d.setReg o v) :=
  ⟨⟨rfl, rfl, rfl, fun p hp => by
    rw [Dev.reg_setReg, if_neg]; rintro rfl; rw [h] at hp; cases hp⟩, rfl⟩
theorem Dev.steady_setRb (d : Dev) {o : Nat} (i : Nat) (b : Bool) (h : memoryBlock o = true) : d.SteadyYard (d.setRb o i b) := d.steady_setReg _ h
theorem Dev.steady_count (d : Dev) {o : Nat} (lo n k : Nat) (h : memoryBlock o = true) : d.SteadyYard (d.count o lo n k) := d.steady_setReg _ h

theorem Dev.steady_setByte (d : Dev) (a : Nat) (v : Byte) : d.SteadyYard (d.setByte a v) := ⟨⟨rfl, rfl, rfl, fun _ _ => rfl⟩, rfl⟩
theorem Dev.steady_setMark (d : Dev) (q : Nat) (v : Bool) : d.SteadyYard (d.setMark q v) := ⟨⟨rfl, rfl, rfl, fun _ _ => rfl⟩, rfl⟩
theorem Dev.steady_setHbmUps (d : Dev) (l : Nat) (u : List Nat) : d.SteadyYard (d.setHbmUps l u) := ⟨⟨rfl, rfl, rfl, fun _ _ => rfl⟩, rfl⟩
theorem Dev.steady_setSramUps (d : Dev) (w : Nat) (u : List Nat) : d.SteadyYard (d.setSramUps w u) := ⟨⟨rfl, rfl, rfl, fun _ _ => rfl⟩, rfl⟩
theorem Dev.steady_rptForget (d : Dev) (a : Nat) : d.SteadyYard (d.rptForget a) := ⟨⟨rfl, rfl, rfl, fun _ _ => rfl⟩, rfl⟩
theorem Dev.steady_setShare (d : Dev) (c : Nat) (x : Share) : d.SteadyYard (d.setShare c x) := ⟨⟨rfl, rfl, rfl, fun _ _ => rfl⟩, rfl⟩
theorem Dev.steady_setCluster (d : Dev) (c : Nat) (x : Cluster) : d.SteadyYard (d.setCluster c x) := ⟨⟨rfl, rfl, rfl, fun _ _ => rfl⟩, rfl⟩

theorem Dev.steady_capture (d : Dev) (c kind loc sub addr : Nat) (p : List Byte) : d.SteadyYard (d.capture c kind loc sub addr p) := by
  unfold Dev.capture; split
  · exact d.steady_setShare _ _
  · exact .refl d
theorem Dev.steady_undo (d : Dev) (c a : Nat) (old : List PByte) : d.SteadyYard (d.undo c a old) := by
  unfold Dev.undo; split
  · exact (d.steady_capture _ _ _ _ _ _).trans (Dev.steady_setShare _ _ _)
  · exact .refl d
theorem Dev.steady_undoStore (d : Dev) (a n : Nat) : d.SteadyYard (d.undoStore a n) := by
  unfold Dev.undoStore; split
  · exact .foldl _ (fun e _ => e.steady_undo _ _ _) _ d
  · exact .refl d
theorem Dev.steady_ueLog (d : Dev) (src die a : Nat) : d.SteadyYard (d.ueLog src die a) := by
  unfold Dev.ueLog; split
  · exact d.steady_setReg _ (by decide)
  · exact .refl d
theorem Dev.steady_countUe (d : Dev) (src a : Nat) : d.SteadyYard (d.countUe src a) :=
  ((d.steady_ueLog src 15 a).trans (Dev.steady_setRb _ 2 true (by decide))).trans (Dev.steady_count _ 24 16 1 (by decide))

theorem Dev.steady_healLine (d : Dev) (l : Nat) (whole : Bool) : d.SteadyYard (d.healLine l whole) := by
  unfold Dev.healLine; split
  · exact .refl d
  · refine .trans ?_ ((Dev.steady_setHbmUps _ l []).trans (Dev.steady_rptForget _ (64 * l)))
    split
    · exact ((d.steady_count 16 16 1 (memoryBlock_hbmErr (Nat.mod_lt l (by decide)))).trans (Dev.steady_countUe _ 0 (64 * l))).trans
        (.foldl _ (fun e _ => e.steady_setMark _ true) _ _)
    · exact .refl d
theorem Dev.steady_healWord (d : Dev) (w : Nat) (whole : Bool) : d.SteadyYard (d.healWord w whole) := by
  unfold Dev.healWord; split
  · exact .refl d
  · refine .trans ?_ ((Dev.steady_setSramUps _ w []).trans (Dev.steady_rptForget _ w))
    split
    · exact (d.steady_countUe 1 w).trans (Dev.steady_setMark _ _ true)
    · exact .refl d
theorem Dev.steady_markGranule (d : Dev) (q a : Nat) (bs : List PByte) : d.SteadyYard (d.markGranule q a bs) := by
  unfold Dev.markGranule; dsimp only; repeat' split
  · exact d.steady_setMark _ _
  · exact d.steady_setMark _ _
  · exact .refl d
theorem Dev.steady_pokeBytes (d : Dev) (a : Nat) (bs : List PByte) : d.SteadyYard (d.pokeBytes a bs) := by
  induction bs generalizing d a with
  | nil => exact .refl d
  | cons b bs ih => exact (d.steady_setByte a b.val).trans (ih _ _)

/-- One HBM line that a write touches, or that goes back to HBM, is encoded afresh and counted. -/
theorem Dev.steady_healLine_count (d : Dev) (l : Nat) (whole : Bool) :
    d.SteadyYard ((d.healLine l whole).count (rHbmWrlines (l % 4)) 0 64) :=
  (d.steady_healLine l whole).trans (Dev.steady_count _ 0 64 1 (memoryBlock_hbmWrlines (Nat.mod_lt l (by decide))))

/-- A write of consecutive bytes. -/
theorem Dev.steady_writeBytes (d : Dev) (a : Nat) (bs : List PByte) : d.SteadyYard (d.writeBytes a bs) := by
  unfold Dev.writeBytes; split
  · exact .refl d
  · refine .trans ?_ (Dev.steady_pokeBytes _ a bs)
    refine .trans ?_ (.foldl _ (fun e _ => e.steady_markGranule _ a bs) _ _)
    refine (d.steady_undoStore a bs.length).trans ?_
    split
    · refine .foldl _ (fun e i => ?_) _ _
      dsimp only; split
      · exact .refl e
      · exact e.steady_healLine_count _ _
    · exact .foldl _ (fun e _ => e.steady_healWord _ _) _ _

theorem Dev.steady_touchFrame (d : Dev) (a : Nat) (dirty : Bool) : d.SteadyYard (d.touchFrame a dirty) := by
  unfold Dev.touchFrame; split
  · exact d.steady_setByte _ _
  · exact .refl d
theorem Dev.steady_touch (d : Dev) (a n : Nat) (dirty : Bool) : d.SteadyYard (d.touch a n dirty) := by
  unfold Dev.touch; split
  · exact .refl d
  · exact (d.steady_touchFrame a dirty).trans (.foldl _ (fun e _ => e.steady_touchFrame _ dirty) _ _)
theorem Dev.steady_qmWrite (d : Dev) (a : Nat) (bs : List Byte) : d.SteadyYard (d.qmWrite a bs) :=
  (d.steady_touch a bs.length true).trans (Dev.steady_writeBytes _ _ _)

/-! ### Lines that stores hold -/

theorem Dev.steady_undoLine (d : Dev) (c l : Nat) : d.SteadyYard (d.undoLine c l) := by
  unfold Dev.undoLine; split
  · exact d.steady_undo _ _ _
  · exact .refl d
theorem Dev.steady_writeBack (d : Dev) (x : CLine) : d.SteadyYard (d.writeBack x) := by
  unfold Dev.writeBack; split
  · exact d.steady_healLine_count _ _
  · exact .refl d
theorem Dev.steady_dropLine (d : Dev) (c l : Nat) : d.SteadyYard (d.dropLine c l) :=
  ((d.steady_undoLine c l).trans (Dev.steady_setCluster _ _ _)).trans (.foldl Dev.writeBack Dev.steady_writeBack _ _)
theorem Dev.steady_installLine (d : Dev) (c l : Nat) (writable : Bool) (old : Option (List PByte)) :
    d.SteadyYard (d.installLine c l writable old) := by
  unfold Dev.installLine; dsimp only
  refine .trans ?_ (Dev.steady_setCluster _ _ _)
  split
  · exact .refl d
  · exact d.steady_undo _ _ _

/-- The lines of a moving track (R103 step 3). -/
theorem Dev.steady_moveLines (d : Dev) (t a b : Nat) : d.SteadyYard (d.moveLines t a b).1 := by
  unfold Dev.moveLines; dsimp only
  refine .trans (.foldl _ (fun e l => ?_) _ d) (.foldl _ (fun e _ => e.steady_dropLine _ _) _ _)
  split
  · exact .refl e
  · refine .trans ?_ (Dev.steady_installLine _ _ _ _ _)
    split
    · exact (((e.steady_undoLine a l).trans (Dev.steady_setCluster _ _ _)).trans (Dev.steady_capture _ _ _ _ _ _ _)).trans
        (Dev.steady_dropLine _ _ _)
    · exact ((e.steady_undoLine a l).trans (Dev.steady_setCluster _ _ _)).trans (Dev.steady_capture _ _ _ _ _ _ _)

/-! ### Records and queues -/

theorem Dev.steady_withHub (d : Dev) (f : Hub → Hub) : d.SteadyYard (d.withHub f) := ⟨⟨rfl, rfl, rfl, fun _ _ => rfl⟩, rfl⟩
theorem Dev.steady_setQueue (d : Dev) (q : Nat) (x : QDesc) : d.SteadyYard (d.setQueue q x) := d.steady_withHub _
theorem Dev.steady_mapRec (d : Dev) (i : Nat) (f : Rec → Rec) : d.SteadyYard (d.mapRec i f) := d.steady_withHub _
theorem Dev.steady_dropRec (d : Dev) (i : Nat) : d.SteadyYard (d.dropRec i) := d.steady_withHub _
theorem Dev.steady_clearSeen (d : Dev) (source seq : Nat) : d.SteadyYard (d.clearSeen source seq) := by
  unfold Dev.clearSeen Dev.setWin; exact d.steady_withHub _
theorem Dev.steady_dequeueRec (d : Dev) (r : Rec) : d.SteadyYard (d.dequeueRec r) := by
  unfold Dev.dequeueRec; split
  · exact d.steady_setQueue _ _
  · exact .refl d
theorem Dev.steady_draw (d : Dev) : d.SteadyYard d.draw.2 := ⟨⟨rfl, rfl, rfl, fun _ _ => rfl⟩, rfl⟩
theorem Dev.steady_slotPlace (d : Dev) (q : Nat) : d.SteadyYard (d.slotPlace q).2 := by
  unfold Dev.slotPlace; dsimp only; split <;> exact d.steady_draw
theorem Dev.steady_enqueueRec (d : Dev) (r : Rec) (q : Nat) : d.SteadyYard (d.enqueueRec r q) := by
  unfold Dev.enqueueRec; split
  · exact .refl d
  · next s e he =>
    have hd : d.SteadyYard e := by simpa only [he] using d.steady_slotPlace q
    exact ((hd.trans (Dev.steady_qmWrite _ _ _)).trans (Dev.steady_setQueue _ _ _)).trans (Dev.steady_mapRec _ _ _)

/-- POSTs that reach their engines (R333). -/
theorem Dev.steady_arrivePosts (d : Dev) (sel : PostReq → Bool) : d.SteadyYard (d.arrivePosts sel) := by
  unfold Dev.arrivePosts; dsimp only
  refine .trans (.foldl _ (fun e p => ?_) _ d) (Dev.steady_withHub _ _)
  split
  · exact .refl e
  · exact e.steady_capture _ _ _ _ _ _

/-! ### The Yard -/

theorem Dev.steady_withYard (d : Dev) (f : Yard → Yard) : d.Steady (d.withYard f) := ⟨rfl, rfl, rfl, fun _ _ => rfl⟩
theorem Dev.steady_setTrack (d : Dev) (t : Nat) (x : Track) : d.Steady (d.setTrack t x) := d.steady_withYard _
theorem Dev.steady_yardLog (d : Dev) (epoch t src dst reason marks lines : Nat) : d.Steady (d.yardLog epoch t src dst reason marks lines) := by
  unfold Dev.yardLog; exact (d.steady_writeBytes _ _).toSteady.trans (Dev.steady_withYard _ _)
/-- The records of a track that is forgotten, none of them transferred (R108). -/
theorem Dev.steady_forsakeTrack (d : Dev) (t : Nat) : d.Steady (d.forsakeTrack t false) := by
  unfold Dev.forsakeTrack; dsimp only
  refine .trans (.foldl _ (fun e i => ?_) _ d) ((Dev.steady_withYard _ _).trans (Dev.steady_setTrack _ _ _))
  split
  · exact .refl e
  · exact (((e.steady_dequeueRec _).trans (Dev.steady_clearSeen _ _ _)).trans (Dev.steady_dropRec _ _)).toSteady
theorem Dev.steady_loseTrack (d : Dev) (t owner : Nat) : d.Steady (d.loseTrack t owner false) := by
  unfold Dev.loseTrack; dsimp only; split
  · exact d.steady_setTrack _ _
  · split
    · exact d.steady_setTrack _ _
    · exact (((d.steady_setTrack _ _).trans (Dev.steady_forsakeTrack _ t)).trans (Dev.steady_yardLog _ _ _ _ _ _ _ _)).trans
        (Dev.steady_setTrack _ _ _)
theorem Dev.steady_loseAll (d : Dev) (owner : Nat) : d.Steady (d.loseAll owner false) := .foldl _ (fun e t => e.steady_loseTrack t owner) _ d

end Sys2Proof.Machine

/-! ## The Yard: dispatch, completed moves, held records -/
namespace Sys2Proof.Machine

open Sys2Proof

/-! ### Commands that complete -/

theorem onUnit_next {ok : Bool} (h : ok = true) (s : State) (f : Dev → Dev) : onUnit ok s f = .next (s.withDev (f s.dev)) := by
  rw [h]; rfl

/-- A command about a unit that the device has completes, with what it makes of the device. -/
theorem Completes.of_onUnit {i : Instr} {s : State} {P : State → Prop} {ok : Bool} {f : Dev → Dev} (hi : exec i s = onUnit ok s f)
    (hok : ok = true) (hP : P (s.withDev (f s.dev))) : Completes i s P :=
  ⟨_, hi.trans (onUnit_next hok s f), hP⟩

/-- A command that leaves the device as it is leaves the state. -/
theorem exec_same_of_onUnit {i : Instr} {s : State} {ok : Bool} {f : Dev → Dev} (hi : exec i s = onUnit ok s f) (hok : ok = true)
    (hf : f s.dev = s.dev) : exec i s = .next s := by
  rw [hi, onUnit_next hok, hf]; rfl

/-! ### Which records, which track, which thread -/

theorem consistRecs_length_le (cls n : Nat) (l : List Rec) : (consistRecs cls n l).length ≤ n := by
  induction n generalizing l with
  | zero => exact Nat.le_of_eq rfl
  | succ n ih =>
    cases l with
    | nil => exact Nat.zero_le _
    | cons r l =>
      unfold consistRecs; split
      · exact Nat.succ_le_succ (ih l)
      · exact Nat.zero_le _

/-- A consist is the first records of the list (R87). -/
theorem consistRecs_eq_take (cls n : Nat) (l : List Rec) : consistRecs cls n l = l.take (consistRecs cls n l).length := by
  induction n generalizing l with
  | zero => rfl
  | succ n ih =>
    cases l with
    | nil => rfl
    | cons r l =>
      unfold consistRecs; split
      · exact congrArg (r :: ·) (ih l)
      · rfl

theorem cls_of_mem_consistRecs {cls n : Nat} {l : List Rec} {z : Rec} (h : z ∈ consistRecs cls n l) : z.cls = cls := by
  induction n generalizing l with
  | zero => cases h
  | succ n ih =>
    cases l with
    | nil => cases h
    | cons r l =>
      unfold consistRecs at h; split at h
      · next hr =>
        rcases List.mem_cons.1 h with rfl | h
        · exact hr
        · exact ih h
      · cases h

/-- The record after a consist that is not full is of another class (R87). -/
theorem cls_ne_of_getElem?_consistRecs {cls n : Nat} {l : List Rec} {z : Rec} (h : l[(consistRecs cls n l).length]? = some z)
    (hn : (consistRecs cls n l).length < n) : z.cls ≠ cls := by
  induction n generalizing l with
  | zero => cases hn
  | succ n ih =>
    cases l with
    | nil => cases h
    | cons r l =>
      unfold consistRecs at h hn; split at h
      · next hr =>
        rw [if_pos hr] at hn
        exact ih h (Nat.lt_of_succ_lt_succ hn)
      · next hr => cases h; exact hr

/-- One step of the choice of R88: the track whose oldest record came first. -/
def earlierTrack (best : Option (Nat × Nat)) (p : Nat × Track) : Option (Nat × Nat) :=
  let i := p.2.waiting.headD 0
  match best with
  | none => some (i, p.1)
  | some b => if i < b.1 then some (i, p.1) else best

theorem Dev.chooseTrack_eq (d : Dev) (c : Nat) :
    d.chooseTrack c = ((d.yard.tracks.filter (fun p => p.2.ready c)).foldl earlierTrack none).map (fun p => p.2) := rfl

/-- What the choice finds is of the list, or what it began with, and none is earlier. -/
theorem foldl_earlierTrack {l : List (Nat × Track)} {best : Option (Nat × Nat)} {b : Nat × Nat} (h : l.foldl earlierTrack best = some b) :
    (best = some b ∨ ∃ p ∈ l, b = (p.2.waiting.headD 0, p.1)) ∧ (∀ q ∈ l, b.1 ≤ q.2.waiting.headD 0) ∧ ∀ a, best = some a → b.1 ≤ a.1 := by
  induction l generalizing best with
  | nil => exact ⟨.inl h, nofun, fun a ha => by cases ha.symm.trans h; exact Nat.le_refl _⟩
  | cons p l ih =>
    obtain ⟨hfrom, hle, hbest⟩ := ih h
    have hstep : ∃ a, earlierTrack best p = some a ∧ a.1 ≤ p.2.waiting.headD 0 ∧ (∀ e, best = some e → a.1 ≤ e.1)
        ∧ (best = some a ∨ a = (p.2.waiting.headD 0, p.1)) := by
      unfold earlierTrack
      cases best with
      | none => exact ⟨_, rfl, Nat.le_refl _, nofun, .inr rfl⟩
      | some e =>
        dsimp only; split
        · next hlt => exact ⟨_, rfl, Nat.le_refl _, fun _ he => by cases he; exact Nat.le_of_lt hlt, .inr rfl⟩
        · next hlt => exact ⟨e, rfl, Nat.le_of_not_lt hlt, fun _ he => by cases he; exact Nat.le_refl _, .inl rfl⟩
    obtain ⟨a, ha, hap, hae, hafrom⟩ := hstep
    have hba := hbest a ha
    refine ⟨?_, ?_, fun e he => Nat.le_trans hba (hae e he)⟩
    · rcases hfrom with hfrom | ⟨q, hq, hb⟩
      · cases ha.symm.trans hfrom
        exact hafrom.imp id (fun hb => ⟨p, List.mem_cons_self, hb⟩)
      · exact .inr ⟨q, List.mem_cons_of_mem _ hq, hb⟩
    · intro q hq
      rcases List.mem_cons.1 hq with rfl | hq
      · exact Nat.le_trans hba hap
      · exact hle q hq

/-- The track chosen is a ready one, and no ready track has an earlier oldest record (R88). -/
theorem Dev.chooseTrack_earliest {d : Dev} {c t : Nat} (h : d.chooseTrack c = some t) :
    ∃ z, (t, z) ∈ d.yard.tracks ∧ z.ready c = true ∧ ∀ q ∈ d.yard.tracks, q.2.ready c = true → z.waiting.headD 0 ≤ q.2.waiting.headD 0 := by
  rw [Dev.chooseTrack_eq, Option.map_eq_some_iff] at h
  obtain ⟨b, hb, rfl⟩ := h
  obtain ⟨hfrom, hle, -⟩ := foldl_earlierTrack hb
  obtain hn | ⟨p, hp, rfl⟩ := hfrom
  · cases hn
  · obtain ⟨hmem, hready⟩ := List.mem_filter.1 hp
    exact ⟨p.2, hmem, hready, fun q hq hr => hle q (List.mem_filter.2 ⟨hq, hr⟩)⟩

/-- The thread chosen is a free one of the cluster (R88). -/
theorem Dev.chooseThread_free {d : Dev} {c g : Nat} (h : d.chooseThread c = some g) : d.freeThread g = true ∧ g / 96 = c := by
  unfold Dev.chooseThread at h
  obtain ⟨k, hk, hg⟩ := Option.bind_eq_some_iff.1 h
  have hk12 : k < 12 := by
    refine List.foldlRecOn (motive := fun o => ∀ k, o = some k → k < 12) _ _ (b := none) nofun (fun best hbest i hi => ?_) k hk
    have hi := List.mem_range.1 hi
    split
    · exact hbest
    · split
      · rintro _ ⟨⟩; exact hi
      · split
        · rintro _ ⟨⟩; exact hi
        · exact hbest
  obtain ⟨i, hi, rfl⟩ := List.mem_map.1 (List.mem_of_find?_eq_some hg)
  have hi := List.mem_range.1 hi
  exact ⟨List.find?_some hg, by omega⟩

/-! ### The thread and the slot of a dispatched consist -/

/-- A register write changes the registers alone. -/
theorem Thread.physSet_frame (t : Thread) (p : Nat) (v : Reg) (m : SMap Reg) : { t.physSet p v with regs := m } = { t with regs := m } := by
  unfold Thread.physSet; split <;> rfl

/-- The state a dispatched thread starts with, before P0-P2 are written (R90). -/
def startedThread (t : Thread) (g track entry ts : Nat) (ids : List ConsistRec) (gen epoch : Nat) : Thread :=
  { t with
    run := .running, pc := word (Config.codeBase + 0x1000000 * clusterOf g + entry), ts := word ts &&& 0xBF7F#64, shadow := none, mc := none,
    wd := 0, lp0 := { t.lp0 with ln := 0 }, lp1 := { t.lp1 with ln := 0 }, lp2 := { t.lp2 with ln := 0 },
    consist := some ⟨track, ids, gen, epoch⟩, releasing := false }

theorem dispatchThread_eq (t : Thread) (g track entry ts : Nat) (rs : List Rec) (ids : List ConsistRec) (gen epoch : Nat) :
    dispatchThread t g track entry ts rs ids gen epoch = (((startedThread t g track entry ts ids gen epoch).physSet (t.pReg 0) ⟨word (slotOf g), false⟩).physSet
      (t.pReg 1) ⟨word rs.length, false⟩).physSet (t.pReg 2) ⟨word track, false⟩ := rfl

/-- Everything of a dispatched thread but its general registers (R90). -/
theorem dispatchThread_frame (t : Thread) (g track entry ts : Nat) (rs : List Rec) (ids : List ConsistRec) (gen epoch : Nat) :
    { dispatchThread t g track entry ts rs ids gen epoch with regs := t.regs } = startedThread t g track entry ts ids gen epoch := by
  rw [dispatchThread_eq, Thread.physSet_frame, Thread.physSet_frame, Thread.physSet_frame]
  rfl

/-- P0-P2 of a dispatched thread's window (R90). -/
theorem dispatchThread_window (t : Thread) (g track entry ts : Nat) (rs : List Rec) (ids : List ConsistRec) (gen epoch : Nat) :
    (dispatchThread t g track entry ts rs ids gen epoch).physGet (t.pReg 0) = ⟨word (slotOf g), false⟩
    ∧ (dispatchThread t g track entry ts rs ids gen epoch).physGet (t.pReg 1) = ⟨word rs.length, false⟩
    ∧ (dispatchThread t g track entry ts rs ids gen epoch).physGet (t.pReg 2) = ⟨word track, false⟩ := by
  have h0 : ∀ i, t.pReg i ≠ 0 := fun i => by unfold Thread.pReg; omega
  have h01 : t.pReg 0 ≠ t.pReg 1 := by unfold Thread.pReg; omega
  have h02 : t.pReg 0 ≠ t.pReg 2 := by unfold Thread.pReg; omega
  have h12 : t.pReg 1 ≠ t.pReg 2 := by unfold Thread.pReg; omega
  rw [dispatchThread_eq]
  generalize startedThread t g track entry ts ids gen epoch = u
  simp [Thread.physGet_physSet, h0, h01, h02, h12]

/-- At user level P0-P7 are registers 8-15 (R134). -/
theorem Thread.phys_pReg {t : Thread} (h : t.sup = false) {r : GReg} {i : Nat} (hi : i < 8) (hr : r.toNat = 8 + i) : t.phys r = t.pReg i := by
  unfold Thread.phys Thread.pReg
  simp only [hr, h]
  rw [if_neg (by omega), if_neg (by simp), if_pos (by omega)]; omega

theorem length_leBytes (n v : Nat) : (leBytes n v).length = n := by
  induction n generalizing v with
  | zero => rfl
  | succ n ih => exact congrArg (· + 1) (ih _)

/-- A consist slot has 192 bytes (R89). -/
theorem Dev.length_slotImage (d : Dev) (t cls : Nat) (rs : List Rec) : (d.slotImage t cls rs).length = 192 := by
  unfold Dev.slotImage
  simp only [List.length_append, length_leBytes, List.length_flatten, List.map_map, Function.comp_def]
  rfl

/-- Its first three bytes: the track and the number of records (R89). -/
theorem Dev.slotImage_head (d : Dev) (t cls : Nat) (rs : List Rec) :
    ∃ l, d.slotImage t cls rs = BitVec.ofNat 8 t :: BitVec.ofNat 8 (t / 256) :: BitVec.ofNat 8 rs.length :: l := ⟨_, rfl⟩

theorem ofLe_two_bytes (t : Nat) : ofLe [BitVec.ofNat 8 t, BitVec.ofNat 8 (t / 256)] = t % 65536 := by
  simp only [ofLe, BitVec.toNat_ofNat]; omega

/-! ### Dispatch -/

/-- The records as the slot of a consist lists them. -/
def Dev.listed (d : Dev) (rs : List Rec) : List ConsistRec :=
  rs.map (fun r => ConsistRec.mk (match r.place with | .queue q s => d.slotAddr q s | _ => 0) r.id)

theorem Dev.listed_ids (d : Dev) (rs : List Rec) : (d.listed rs).map (fun z => z.recId) = rs.map (fun z => z.id) := by
  simp [Dev.listed]

/-- The device once the slot of thread `g` is written and captured. -/
def Dev.slotWritten (d : Dev) (c t g cls : Nat) (rs : List Rec) : Dev :=
  (d.writeBytes (slotOf g) (clean (d.slotImage t cls rs))).capture c 1 (localOf g) 0 (slotOf g) (d.slotImage t cls rs)

/-- The device once thread `g` starts. -/
def Dev.threadStarted (d : Dev) (g t entry ts : Nat) (rs : List Rec) (ids : List ConsistRec) : Dev :=
  d.setThread g (dispatchThread (d.thread g) g t entry ts rs ids d.yard.gen d.jnl.epoch)

/-- Dispatched records count in their cluster's load (R97). -/
def Dev.loadCounted (d : Dev) (c n : Nat) : Dev :=
  let l := SMap.get (fun _ => Load.reset) d.yard.loads c
  d.withYard (fun y => { y with loads := SMap.set (fun _ => Load.reset) y.loads c { l with recsd := l.recsd + n } })

/-- A track whose `n` oldest records are dispatched (R87, R95). -/
def Track.dispatched (x : Track) (n : Nat) : Track := { x with occ := true, waiting := x.waiting.drop n, recs := sat 65535 (x.recs + n) }

/-- The device, its slot written, once the consist of records `rs` of track `t`, which was `x`, has gone to thread `g`. -/
def Dev.consistStarted (d : Dev) (c t g : Nat) (cls : Nat × Nat) (x : Track) (rs : List Rec) (ids : List ConsistRec) : Dev :=
  ((d.threadStarted g t cls.2 cls.1 rs ids).setTrack t (x.dispatched rs.length)).loadCounted c rs.length

/-- A dispatch for which a track and a thread are found writes the slot and starts the thread. -/
theorem Dev.dispatch_eq {d : Dev} {c t g : Nat} {r : Rec} {rest rs : List Rec} (ht : d.chooseTrack c = some t) (hg : d.chooseThread c = some g)
    (hw : (d.track t).waiting.filterMap d.recOf = r :: rest) (hrs : consistRecs r.cls d.consistMax (r :: rest) = rs) :
    d.dispatch c = (d.slotWritten c t g r.cls rs).consistStarted c t g (SMap.get (fun _ => (0, 0)) d.tt.classes r.cls) (d.track t) rs (d.listed rs) := by
  unfold Dev.dispatch
  simp only [ht, hg, hw, hrs]
  unfold Dev.slotWritten
  generalize (d.writeBytes (slotOf g) (clean (d.slotImage t r.cls rs))).capture c 1 (localOf g) 0 (slotOf g) (d.slotImage t r.cls rs) = e
  rfl

theorem Dev.consistStarted_thread (d : Dev) (c t g : Nat) (cls : Nat × Nat) (x : Track) (rs : List Rec) (ids : List ConsistRec) :
    (d.consistStarted c t g cls x rs ids).thread g = dispatchThread (d.thread g) g t cls.2 cls.1 rs ids d.yard.gen d.jnl.epoch :=
  Dev.thread_setThread_same d g _

theorem Dev.consistStarted_thread_ne (d : Dev) (c t : Nat) {g h : Nat} (cls : Nat × Nat) (x : Track) (rs : List Rec) (ids : List ConsistRec) (hh : h ≠ g) :
    (d.consistStarted c t g cls x rs ids).thread h = d.thread h :=
  (Dev.thread_setThread d g h _).trans (if_neg hh)

theorem Dev.consistStarted_track (d : Dev) (c t g : Nat) (cls : Nat × Nat) (x : Track) (rs : List Rec) (ids : List ConsistRec) :
    (d.consistStarted c t g cls x rs ids).track t = x.dispatched rs.length :=
  (Dev.track_setTrack (d.threadStarted g t cls.2 cls.1 rs ids) t t _).trans (if_pos rfl)

theorem Dev.consistStarted_byteAt (d : Dev) (c t g : Nat) (cls : Nat × Nat) (x : Track) (rs : List Rec) (ids : List ConsistRec) (b : Nat) :
    (d.consistStarted c t g cls x rs ids).byteAt b = d.byteAt b := rfl

theorem Dev.steady_slotWritten (d : Dev) (c t g cls : Nat) (rs : List Rec) : d.SteadyYard (d.slotWritten c t g cls rs) := by
  unfold Dev.slotWritten
  exact (d.steady_writeBytes _ _).trans (Dev.steady_capture _ _ _ _ _ _ _)

theorem Dev.byteAt_slotWritten (d : Dev) (c t g cls : Nat) (rs : List Rec) (b : Nat) :
    (d.slotWritten c t g cls rs).byteAt b = (d.writeBytes (slotOf g) (clean (d.slotImage t cls rs))).byteAt b := by
  unfold Dev.slotWritten Dev.byteAt; rw [Dev.bytes_capture]

/-- A byte of the slot is that of its image. -/
theorem Dev.byteAt_slotWritten_inside (d : Dev) (c t g cls : Nat) (rs : List Rec) {i : Nat} {b : Byte}
    (h : (d.slotImage t cls rs)[i]? = some b) : (d.slotWritten c t g cls rs).byteAt (slotOf g + i) = b := by
  rw [Dev.byteAt_slotWritten, Dev.byteAt_writeBytes, if_pos (Nat.le_add_right _ _), Nat.add_sub_cancel_left]
  simp [clean, h]

theorem Dev.byteAt_slotWritten_outside (d : Dev) (c t g cls : Nat) (rs : List Rec) {b : Nat} (h : b < slotOf g ∨ slotOf g + 192 ≤ b) :
    (d.slotWritten c t g cls rs).byteAt b = d.byteAt b := by
  have hlen : (clean (d.slotImage t cls rs)).length = 192 := (List.length_map _).trans (d.length_slotImage t cls rs)
  rw [Dev.byteAt_slotWritten, Dev.byteAt_writeBytes_outside d _ b _ (hlen.symm ▸ h)]

end Sys2Proof.Machine

/-! ## The Yard: completed moves and the hold -/
namespace Sys2Proof.Machine

open Sys2Proof

theorem memoryBlock_yrdErr : memoryBlock rYrdErr = false := by decide

/-- What every step of a completed move keeps but those that complete it: threads, Signal Box, the moves under way, the count of moves, the
log's tail, and each track's place. -/
structure Dev.KeepsMoves (d e : Dev) : Prop where
  thr : e.thr = d.thr
  box : e.box = d.box
  moves : e.yard.moves = d.yard.moves
  count : e.rf rYrdErr 32 32 = d.rf rYrdErr 32 32
  logTail : e.yard.logTail = d.yard.logTail
  state : ∀ t, (e.track t).state = (d.track t).state
  home : ∀ t, (e.track t).home = (d.track t).home
  target : ∀ t, (e.track t).target = (d.track t).target
  marks : ∀ t, (e.track t).marks = (d.track t).marks

theorem Dev.KeepsMoves.refl (d : Dev) : d.KeepsMoves d := ⟨rfl, rfl, rfl, rfl, rfl, fun _ => rfl, fun _ => rfl, fun _ => rfl, fun _ => rfl⟩
theorem Dev.KeepsMoves.trans {d e f : Dev} (h : d.KeepsMoves e) (k : e.KeepsMoves f) : d.KeepsMoves f :=
  ⟨k.thr.trans h.thr, k.box.trans h.box, k.moves.trans h.moves, k.count.trans h.count, k.logTail.trans h.logTail,
    fun t => (k.state t).trans (h.state t), fun t => (k.home t).trans (h.home t), fun t => (k.target t).trans (h.target t),
    fun t => (k.marks t).trans (h.marks t)⟩
theorem Dev.KeepsMoves.foldl {α : Type} (f : Dev → α → Dev) (h : ∀ (e : Dev) (a : α), e.KeepsMoves (f e a)) (l : List α) (d : Dev) :
    d.KeepsMoves (l.foldl f d) :=
  foldl_keeps d.KeepsMoves f (fun _ _ he => he.trans (h _ _)) l d (.refl d)

theorem Dev.SteadyYard.keepsMoves {d e : Dev} (h : d.SteadyYard e) : d.KeepsMoves e :=
  ⟨h.thr, h.box, by rw [h.yard], Dev.rf_congr (h.reg _ memoryBlock_yrdErr) _ _, by rw [h.yard],
    fun t => by rw [h.track t], fun t => by rw [h.track t], fun t => by rw [h.track t], fun t => by rw [h.track t]⟩

/-- Another waiting list of a track leaves its place. -/
theorem Dev.keepsMoves_setWaiting (d : Dev) (t : Nat) (w : List Nat) : d.KeepsMoves (d.setTrack t { d.track t with waiting := w }) := by
  have key : ∀ u, (d.setTrack t { d.track t with waiting := w }).track u = { d.track u with
      waiting := if u = t then w else (d.track u).waiting } := fun u => by
    rw [Dev.track_setTrack]; split
    · next h => rw [h]
    · rfl
  exact ⟨rfl, rfl, rfl, rfl, rfl, fun u => by rw [key], fun u => by rw [key], fun u => by rw [key], fun u => by rw [key]⟩

theorem Dev.keepsMoves_withHold (d : Dev) (f : List Nat → List Nat) : d.KeepsMoves (d.withYard (fun y => { y with hold := f y.hold })) :=
  ⟨rfl, rfl, rfl, rfl, rfl, fun _ => rfl, fun _ => rfl, fun _ => rfl, fun _ => rfl⟩

/-- A bit of another register, or of YRD_ERR below its counters, leaves the count of moves. -/
theorem Dev.keepsMoves_setRb (d : Dev) (o i : Nat) (b : Bool) (h : o ≠ rYrdErr ∨ i < 32) : d.KeepsMoves (d.setRb o i b) := by
  have hc : (d.setRb o i b).rf rYrdErr 32 32 = d.rf rYrdErr 32 32 := by
    by_cases ho : o = rYrdErr
    · subst ho; exact Dev.rf_setRb_apart d _ b (.inr (h.resolve_left (fun h => h rfl)))
    · exact Dev.rf_congr (Dev.reg_setRb_ne d i b (Ne.symm ho)) _ _
  exact ⟨rfl, rfl, rfl, hc, rfl, fun _ => rfl, fun _ => rfl, fun _ => rfl, fun _ => rfl⟩

theorem Dev.keepsMoves_noteHold (d : Dev) : d.KeepsMoves d.noteHold := by
  unfold Dev.noteHold; split
  · exact d.keepsMoves_setRb _ _ _ (.inr (by decide))
  · exact .refl d

theorem Dev.queueRec_eq (d : Dev) (r : Rec) :
    d.queueRec r = (d.enqueueRec r (recordQueue (d.track r.track).home r.track)).setTrack r.track
      { (d.enqueueRec r (recordQueue (d.track r.track).home r.track)).track r.track with
        waiting := ((d.enqueueRec r (recordQueue (d.track r.track).home r.track)).track r.track).waiting ++ [r.id] } := rfl
theorem Dev.keepsMoves_queueRec (d : Dev) (r : Rec) : d.KeepsMoves (d.queueRec r) := by
  rw [Dev.queueRec_eq]
  exact (d.steady_enqueueRec _ _).keepsMoves.trans (Dev.keepsMoves_setWaiting _ _ _)

theorem Dev.keepsMoves_drainHold (d : Dev) (t : Nat) : d.KeepsMoves (d.drainHold t) := by
  unfold Dev.drainHold; dsimp only; split
  · exact .refl d
  · refine .foldl _ (fun e i => ?_) _ d
    split
    · exact .refl e
    · split
      · exact (e.keepsMoves_withHold _).trans (Dev.keepsMoves_queueRec _ _)
      · exact .refl e

/-! ### The stages of a completed move -/

/-- The records of a moving track leave their queue, and as many as it has room for take slots of queue `qb` (R103 step 2). -/
def Dev.recordsMoved (d : Dev) (recs : List Rec) (room qb : Nat) : Dev :=
  (recs.take room).foldl (fun d r => d.enqueueRec { r with place := .hold } qb)
    (recs.foldl (fun d r => d.mapRec r.id (fun r => { r with place := .hold })) (recs.foldl (fun d r => d.dequeueRec r) d))

/-- The move of track `t` is no longer under way, and its `late` records are held before the others (R105). -/
def Dev.moveEnded (d : Dev) (t : Nat) (late : List Nat) : Dev :=
  d.withYard (fun y => { y with hold := late ++ y.hold, moves := y.moves.filter (fun p => p.1 ≠ t) })

/-- A track homed in its destination. -/
def Track.arrived (x : Track) (waiting : List Nat) : Track :=
  { x with state := .settled, home := x.target, target := 0, reason := 0, marks := 0, streak := 0, waiting := waiting }

/-- A snapshot that waited for the last move of its boundary is written (R108). -/
def Dev.snapWritten (d : Dev) : Dev :=
  if d.yard.moves.isEmpty then
    match d.yard.snap with
    | some (addr, img) => (((d.writeBytes addr (clean img)).withYard (fun y => { y with snap := none })).setRb rYrdSnap 1 true).setRb rYrdSnap 0 false
    | none => d
  else d

/-- The lines of track `t`, which was `x`, move, and the track is homed in its destination; the move is logged and counted (R103). -/
def Dev.trackArrived (d : Dev) (t epoch : Nat) (x : Track) (waiting : List Nat) : Dev :=
  (((d.moveLines t x.home x.target).1.setTrack t (x.arrived waiting)).yardLog epoch t x.home x.target x.reason x.marks
    (d.moveLines t x.home x.target).2).count rYrdErr 32 32

/-- The first part of a completed move that finds room, as stages. -/
theorem Dev.recordsMoved_def (d : Dev) (recs : List Rec) (room qb : Nat) :
    (recs.take room).foldl (fun d r => d.enqueueRec { r with place := .hold } qb)
      (recs.foldl (fun d r => d.mapRec r.id (fun r => { r with place := .hold })) (recs.foldl (fun d r => d.dequeueRec r) d))
    = d.recordsMoved recs room qb := rfl
theorem Dev.moveEnded_def (d : Dev) (t : Nat) (late : List Nat) :
    d.withYard (fun y => { y with hold := late ++ y.hold, moves := y.moves.filter (fun p => p.1 ≠ t) }) = d.moveEnded t late := rfl
theorem Dev.trackArrived_def (d : Dev) (t epoch : Nat) (x : Track) (waiting : List Nat) :
    (((d.moveLines t x.home x.target).1.setTrack t
      { x with state := .settled, home := x.target, target := 0, reason := 0, marks := 0, streak := 0, waiting := waiting }).yardLog
      epoch t x.home x.target x.reason x.marks (d.moveLines t x.home x.target).2).count rYrdErr 32 32 = d.trackArrived t epoch x waiting := rfl

/-- A move of an owned track that finds room: its records, its lines and its home, then held records, POSTs and the snapshot. -/
theorem Dev.completeMove_eq {d e : Dev} {t room : Nat} {m : Nat × Nat} {x : Track} {recs : List Rec} (hx : d.track t = x)
    (hm : (d.yard.moves.take 8).find? (fun p => p.1 == t) = some m) (hl : x.leaving = none) (hh : d.yard.hold.length + x.waiting.length ≤ Config.holdSize)
    (hrecs : x.waiting.filterMap d.recOf = recs) (hroom : (d.queue (recordQueue x.target t)).size - (d.queue (recordQueue x.target t)).occ = room)
    (he : ((((((d.recordsMoved recs room (recordQueue x.target t)).moveEnded t ((recs.drop room).map (fun r => r.id))).noteHold).trackArrived t m.2 x
      ((recs.take room).map (fun r => r.id))).drainHold t).arrivePosts (fun p => p.held && decide (p.track = t))) = e) :
    d.completeMove t = e.snapWritten := by
  unfold Dev.completeMove
  simp only [hm, hx]
  rw [if_neg (by omega)]
  simp only [hrecs, hroom, Dev.recordsMoved_def, Dev.moveEnded_def, Dev.trackArrived_def]
  simp only [hl, he]
  rfl

theorem Dev.steady_recordsMoved (d : Dev) (recs : List Rec) (room qb : Nat) : d.SteadyYard (d.recordsMoved recs room qb) := by
  unfold Dev.recordsMoved
  exact ((Dev.SteadyYard.foldl _ (fun e _ => e.steady_dequeueRec _) _ d).trans (.foldl _ (fun e _ => e.steady_mapRec _ _) _ _)).trans
    (.foldl _ (fun e _ => e.steady_enqueueRec _ _) _ _)

theorem Dev.keepsMoves_snapWritten (d : Dev) : d.KeepsMoves d.snapWritten := by
  unfold Dev.snapWritten; split
  · split
    · next addr img _ =>
      have hw := (d.steady_writeBytes addr (clean img)).keepsMoves
      have hy : (d.writeBytes addr (clean img)).KeepsMoves ((d.writeBytes addr (clean img)).withYard (fun y => { y with snap := none })) :=
        ⟨rfl, rfl, rfl, rfl, rfl, fun _ => rfl, fun _ => rfl, fun _ => rfl, fun _ => rfl⟩
      exact ((hw.trans hy).trans (Dev.keepsMoves_setRb _ rYrdSnap 1 true (.inl (by decide)))).trans
        (Dev.keepsMoves_setRb _ rYrdSnap 0 false (.inl (by decide)))
    · exact .refl d
  · exact .refl d

end Sys2Proof.Machine

/-! ## The Yard: the statement -/
namespace Sys2Proof.Machine

open Sys2Proof

/-- CONSIST_DISPATCH where a track and a thread are found (R86-R90). -/
theorem consistDispatch_completes {s : State} {c t g : Nat} {r : Rec} {rest rs : List Rec} (hc : c < Config.clusters)
    (hh : (s.dev.cluster c).held = false) (ht : s.dev.chooseTrack c = some t) (hg : s.dev.chooseThread c = some g)
    (hw : (s.dev.track t).waiting.filterMap s.dev.recOf = r :: rest) (hrs : consistRecs r.cls s.dev.consistMax (r :: rest) = rs) {P : State → Prop}
    (hP : P (s.withDev ((s.dev.slotWritten c t g r.cls rs).consistStarted c t g (SMap.get (fun _ => (0, 0)) s.dev.tt.classes r.cls) (s.dev.track t) rs
      (s.dev.listed rs)))) : Completes (.consistDispatch c) s P := by
  refine .of_onUnit rfl (decide_eq_true hc) ?_
  rw [if_neg (by simp [hh]), Dev.dispatch_eq ht hg hw hrs]
  exact hP

/-- The thread that a consist goes to (R90): a state of its own for the entry, and P0-P2 of its window. -/
theorem dispatchThread_starts {t v : Thread} {g track entry ts gen epoch : Nat} {rs : List Rec} {ids : List ConsistRec}
    (hv : dispatchThread t g track entry ts rs ids gen epoch = v) :
    v.run = .running ∧ v.pc = word (Config.codeBase + 0x1000000 * clusterOf g + entry) ∧ v.ts = word ts &&& 0xBF7F#64
    ∧ v.physGet (t.pReg 0) = ⟨word (slotOf g), false⟩ ∧ v.physGet (t.pReg 1) = ⟨word rs.length, false⟩ ∧ v.physGet (t.pReg 2) = ⟨word track, false⟩
    ∧ (v.sup = false → v.greg 8 = ⟨word (slotOf g), false⟩ ∧ v.greg 9 = ⟨word rs.length, false⟩ ∧ v.greg 10 = ⟨word track, false⟩)
    ∧ v.wd = 0 ∧ v.lp0.ln = 0 ∧ v.lp1.ln = 0 ∧ v.lp2.ln = 0 ∧ v.dacc = t.dacc ∧ v.fregs = t.fregs ∧ v.up = t.up ∧ v.down = t.down
    ∧ v.consist = some ⟨track, ids, gen, epoch⟩ := by
  have hf : { v with regs := t.regs } = startedThread t g track entry ts ids gen epoch := hv ▸ dispatchThread_frame t g track entry ts rs ids gen epoch
  obtain ⟨h0, h1, h2⟩ := dispatchThread_window t g track entry ts rs ids gen epoch
  rw [hv] at h0 h1 h2
  have hsel : v.wsel = t.wsel := (congrArg Thread.wsel hf :)
  have hp : ∀ i, v.pReg i = t.pReg i := fun i => by unfold Thread.pReg; rw [hsel]
  have hgreg : ∀ (q : GReg) (i : Nat), i < 8 → q.toNat = 8 + i → v.sup = false → v.greg q = v.physGet (t.pReg i) := fun q i hi hq hs => by
    unfold Thread.greg; rw [Thread.phys_pReg hs hi hq, hp]
  exact ⟨(congrArg Thread.run hf :), (congrArg Thread.pc hf :), (congrArg Thread.ts hf :), h0, h1, h2,
    fun hs => ⟨(hgreg 8 0 (by decide) rfl hs).trans h0, (hgreg 9 1 (by decide) rfl hs).trans h1, (hgreg 10 2 (by decide) rfl hs).trans h2⟩,
    (congrArg Thread.wd hf :), congrArg (fun u => u.lp0.ln) hf, congrArg (fun u => u.lp1.ln) hf, congrArg (fun u => u.lp2.ln) hf,
    (congrArg Thread.dacc hf :), (congrArg Thread.fregs hf :), (congrArg Thread.up hf :), (congrArg Thread.down hf :), (congrArg Thread.consist hf :)⟩

/-- TRACK and COUNT of a slot that has been written (R89). -/
theorem Dev.slotWritten_head (d : Dev) (c t g cls : Nat) (rs : List Rec) :
    ofLe ((List.range 2).map (fun i => (d.slotWritten c t g cls rs).byteAt (slotOf g + i))) = t % 65536
    ∧ ((d.slotWritten c t g cls rs).byteAt (slotOf g + 2)).toNat = rs.length % 256 := by
  obtain ⟨l, hl⟩ := d.slotImage_head t cls rs
  constructor
  · rw [← ofLe_two_bytes t]
    show ofLe [(d.slotWritten c t g cls rs).byteAt (slotOf g + 0), (d.slotWritten c t g cls rs).byteAt (slotOf g + 1)] = _
    rw [d.byteAt_slotWritten_inside c t g cls rs (by rw [hl]; rfl), d.byteAt_slotWritten_inside c t g cls rs (by rw [hl]; rfl)]
  · rw [d.byteAt_slotWritten_inside c t g cls rs (by rw [hl]; rfl), BitVec.toNat_ofNat]

/-! ### A completed move -/

theorem Dev.rstTry_of_idle {d : Dev} (h : d.box.rst = none) : d.rstTry = d := by
  unfold Dev.rstTry Dev.rstSettle; rw [h]

/-- What the middle of a completed move leaves: the track in its destination, the move logged and counted (R103). -/
structure Dev.TrackHome (d e : Dev) (t : Nat) : Prop where
  thr : e.thr = d.thr
  box : e.box = d.box
  moves : ∀ p ∈ e.yard.moves, p.1 ≠ t
  count : e.rf rYrdErr 32 32 = sat (2 ^ 32 - 1) (d.rf rYrdErr 32 32 + 1)
  logTail : e.yard.logTail = (d.yard.logTail + 1) % 2 ^ 32
  state : (e.track t).state = .settled
  home : (e.track t).home = (d.track t).target
  target : (e.track t).target = 0
  marks : (e.track t).marks = 0

theorem Dev.TrackHome.trans {d e f : Dev} {t : Nat} (h : d.TrackHome e t) (k : e.KeepsMoves f) : d.TrackHome f t :=
  ⟨k.thr.trans h.thr, k.box.trans h.box, by rw [k.moves]; exact h.moves, k.count.trans h.count, k.logTail.trans h.logTail,
    (k.state t).trans h.state, (k.home t).trans h.home, (k.target t).trans h.target, (k.marks t).trans h.marks⟩

theorem Dev.yardLog_logTail (d : Dev) (epoch t src dst reason marks lines : Nat) :
    (d.yardLog epoch t src dst reason marks lines).yard.logTail = (d.yard.logTail + 1) % 2 ^ 32 := by
  unfold Dev.yardLog; dsimp only
  rw [Dev.withYard_own]; dsimp only
  rw [(d.steady_writeBytes _ _).yard]
theorem Dev.yardLog_moves (d : Dev) (epoch t src dst reason marks lines : Nat) :
    (d.yardLog epoch t src dst reason marks lines).yard.moves = d.yard.moves := by
  unfold Dev.yardLog; dsimp only
  rw [Dev.withYard_own]; dsimp only
  rw [(d.steady_writeBytes _ _).yard]
theorem Dev.yardLog_tracks (d : Dev) (epoch t src dst reason marks lines : Nat) :
    (d.yardLog epoch t src dst reason marks lines).yard.tracks = d.yard.tracks := by
  unfold Dev.yardLog; dsimp only
  rw [Dev.withYard_own]; dsimp only
  rw [(d.steady_writeBytes _ _).yard]

/-- The track that arrives is home, whatever the device that ends its move had kept of `d`. -/
theorem Dev.trackHome_trackArrived {d e : Dev} (t epoch : Nat) (waiting : List Nat) (thr : e.thr = d.thr) (box : e.box = d.box)
    (moves : ∀ p ∈ e.yard.moves, p.1 ≠ t) (count : e.rf rYrdErr 32 32 = d.rf rYrdErr 32 32) (logTail : e.yard.logTail = d.yard.logTail) :
    d.TrackHome (e.trackArrived t epoch (d.track t) waiting) t := by
  unfold Dev.trackArrived
  have hl := e.steady_moveLines t (d.track t).home (d.track t).target
  generalize (e.moveLines t (d.track t).home (d.track t).target).2 = n
  generalize (e.moveLines t (d.track t).home (d.track t).target).1 = f at hl ⊢
  have hy := (f.setTrack t ((d.track t).arrived waiting)).steady_yardLog epoch t (d.track t).home (d.track t).target (d.track t).reason (d.track t).marks n
  have htr : ((f.setTrack t ((d.track t).arrived waiting)).yardLog epoch t (d.track t).home (d.track t).target (d.track t).reason (d.track t).marks n).track t
      = (d.track t).arrived waiting := by
    rw [Dev.track, Dev.yardLog_tracks, ← Dev.track, Dev.track_setTrack, if_pos rfl]
  have hmv := (f.setTrack t ((d.track t).arrived waiting)).yardLog_moves epoch t (d.track t).home (d.track t).target (d.track t).reason (d.track t).marks n
  have hlt := (f.setTrack t ((d.track t).arrived waiting)).yardLog_logTail epoch t (d.track t).home (d.track t).target (d.track t).reason (d.track t).marks n
  generalize (f.setTrack t ((d.track t).arrived waiting)).yardLog epoch t (d.track t).home (d.track t).target (d.track t).reason (d.track t).marks n = k
    at hy htr hmv hlt ⊢
  have hset : (f.setTrack t ((d.track t).arrived waiting)).yard.logTail = f.yard.logTail
      ∧ (f.setTrack t ((d.track t).arrived waiting)).yard.moves = f.yard.moves := ⟨rfl, rfl⟩
  have htk : (k.count rYrdErr 32 32).track t = (d.track t).arrived waiting := htr
  refine ⟨(hy.thr.trans hl.thr).trans thr, (hy.box.trans hl.box).trans box, ?_, ?_, ?_, by rw [htk]; rfl, by rw [htk]; rfl, by rw [htk]; rfl, by rw [htk]; rfl⟩
  · show ∀ p ∈ k.yard.moves, p.1 ≠ t
    rw [hmv, hset.2, hl.yard]; exact moves
  · rw [Dev.rf_count_same k _ _ (by decide), Dev.rf_congr (hy.reg _ memoryBlock_yrdErr), ← count]
    exact congrArg (fun v => sat (2 ^ 32 - 1) (v + 1)) (Dev.rf_congr (hl.reg _ memoryBlock_yrdErr) _ _)
  · show k.yard.logTail = _
    rw [hlt, hset.1, hl.yard, logTail]

/-- The stages of a completed move after its records have moved home the track. -/
theorem Dev.KeepsMoves.trackHome {d e : Dev} (h : d.KeepsMoves e) (t epoch : Nat) (late waiting : List Nat) (sel : PostReq → Bool) :
    d.TrackHome ((((e.moveEnded t late).noteHold.trackArrived t epoch (d.track t) waiting).drainHold t).arrivePosts sel).snapWritten t := by
  have hn := (e.moveEnded t late).keepsMoves_noteHold
  have hmoves : ∀ p ∈ (e.moveEnded t late).yard.moves, p.1 ≠ t := fun p hp => by simpa using (List.mem_filter.1 hp).2
  have hhome : d.TrackHome ((e.moveEnded t late).noteHold.trackArrived t epoch (d.track t) waiting) t :=
    Dev.trackHome_trackArrived t epoch waiting (hn.thr.trans h.thr) (hn.box.trans h.box) (by rw [hn.moves]; exact hmoves) (hn.count.trans h.count)
      (hn.logTail.trans h.logTail)
  exact hhome.trans (((Dev.keepsMoves_drainHold _ t).trans (Dev.steady_arrivePosts _ _).keepsMoves).trans (Dev.keepsMoves_snapWritten _))

/-- The completion of a move that finds room homes its track (R103). -/
theorem Dev.trackHome_completeMove {d : Dev} {t : Nat} {m : Nat × Nat} (hm : (d.yard.moves.take 8).find? (fun p => p.1 == t) = some m)
    (hl : (d.track t).leaving = none) (hh : d.yard.hold.length + (d.track t).waiting.length ≤ Config.holdSize) : d.TrackHome (d.completeMove t) t := by
  rw [Dev.completeMove_eq rfl hm hl hh rfl rfl rfl]
  exact (d.steady_recordsMoved _ _ _).keepsMoves.trackHome t m.2 _ _ _

/-! ### The hold -/

theorem Dev.id_of_recOf {d : Dev} {i : Nat} {r : Rec} (h : d.recOf i = some r) : r.id = i := by
  simpa using List.find?_some h

theorem Dev.track_of_mem_heldOf {d : Dev} {t i : Nat} {r : Rec} (h : i ∈ d.heldOf t) (hr : d.recOf i = some r) : r.track = t := by
  simpa [hr] using (List.mem_filter.1 h).2

theorem Dev.queueRec_hold (d : Dev) (r : Rec) : (d.queueRec r).yard.hold = d.yard.hold := by
  rw [Dev.queueRec_eq]
  show (d.enqueueRec r _).yard.hold = _
  rw [(d.steady_enqueueRec r _).yard]

theorem Dev.queueRec_waiting (d : Dev) (r : Rec) : ((d.queueRec r).track r.track).waiting = (d.track r.track).waiting ++ [r.id] := by
  rw [Dev.queueRec_eq, Dev.track_setTrack, if_pos rfl]; dsimp only
  rw [(d.steady_enqueueRec r _).track]

/-- The one held record of a track with room joins its queue (R105). -/
theorem Dev.drainHold_one {d : Dev} {t m : Nat} {r : Rec} (hs : (d.track t).state ≠ .moving) (ho : (d.track t).owned = true) (hm : d.heldOf t = [m])
    (hr : d.recOf m = some r) (hroom : (d.queue (recordQueue (d.track t).home t)).occ < (d.queue (recordQueue (d.track t).home t)).size) :
    d.drainHold t = (d.withYard (fun y => { y with hold := y.hold.filter (fun j => j ≠ m) })).queueRec r := by
  unfold Dev.drainHold
  simp [hs, ho, hm, hr, hroom]

theorem State.dev_withDev (s : State) (d : Dev) : (s.withDev d).dev = d := rfl

/-- What a byte of the device after a dispatch is: that of the device in which the slot was written. -/
theorem State.byteAt_consistStarted (s : State) (e : Dev) (c t g : Nat) (cls : Nat × Nat) (x : Track) (rs : List Rec) (ids : List ConsistRec) (b : Nat) :
    (s.withDev (e.consistStarted c t g cls x rs ids)).dev.byteAt b = e.byteAt b := by
  rw [State.dev_withDev, Dev.consistStarted_byteAt]

/-- Settles O47: a dispatch is the slot written and the thread started; a completed move is its stages, each of which keeps what the next
needs; a drain of one held record is one record queued. The reading of a cluster that stops for a checkpoint is assumption 135. -/
theorem yardDispatchesMovesAndDrains : Obligations.YardDispatchesMovesAndDrains := by
  intro s c t g m r rest
  refine ⟨fun hc hh ht hg hw => ?_, Dev.chooseTrack_earliest, Dev.chooseThread_free, fun hc hh => ?_, fun ht hh => ?_, fun ht hh hm hl hb hroom => ?_,
    fun ht hs ho hm hr hroom => ?_⟩
  · refine consistDispatch_completes hc hh ht hg hw rfl ?_
    have htake := consistRecs_eq_take r.cls s.dev.consistMax (r :: rest)
    have hcls : ∀ z ∈ consistRecs r.cls s.dev.consistMax (r :: rest), z.cls = r.cls := fun z => cls_of_mem_consistRecs
    have hnext : ∀ z, (r :: rest)[(consistRecs r.cls s.dev.consistMax (r :: rest)).length]? = some z → _ → z.cls ≠ r.cls :=
      fun z => cls_ne_of_getElem?_consistRecs
    have hle := consistRecs_length_le r.cls s.dev.consistMax (r :: rest)
    generalize consistRecs r.cls s.dev.consistMax (r :: rest) = rs at htake hcls hnext hle ⊢
    have hsteady := s.dev.steady_slotWritten c t g r.cls rs
    obtain ⟨htrk, hcount⟩ := s.dev.slotWritten_head c t g r.cls rs
    have hout : ∀ b, _ → (s.dev.slotWritten c t g r.cls rs).byteAt b = _ := fun b => s.dev.byteAt_slotWritten_outside c t g r.cls rs
    generalize s.dev.slotWritten c t g r.cls rs = e at hsteady htrk hcount hout ⊢
    have hv := dispatchThread_starts ((e.consistStarted_thread c t g (SMap.get (fun _ => (0, 0)) s.dev.tt.classes r.cls) (s.dev.track t) rs
      (s.dev.listed rs)).symm)
    rw [hsteady.thread g] at hv
    obtain ⟨hrun, hpc, hts, h0, h1, h2, hgreg, hwd, hl0, hl1, hl2, hdacc, hfregs, hup, hdown, hcons⟩ := hv
    have htrack := e.consistStarted_track c t g (SMap.get (fun _ => (0, 0)) s.dev.tt.classes r.cls) (s.dev.track t) rs (s.dev.listed rs)
    refine ⟨hrun, hpc, hts, h0, h1, h2, hgreg, hwd, hl0, hl1, hl2, hdacc, hfregs, hup, hdown,
      fun h hne => (e.consistStarted_thread_ne c t _ _ rs _ hne).trans (hsteady.thread h), ⟨_, hcons, rfl, ?_⟩, hle, ?_, hnext, ?_, ?_, ?_, ?_, fun b => ?_⟩
    · rw [← htake]; exact s.dev.listed_ids rs
    · rw [← htake]; exact hcls
    · exact congrArg Track.occ htrack
    · exact congrArg Track.waiting htrack
    · simp only [State.byteAt_consistStarted]; exact htrk
    · simp only [State.byteAt_consistStarted]; exact hcount
    · simp only [State.byteAt_consistStarted]; exact hout b
  · exact exec_same_of_onUnit rfl (decide_eq_true hc) (if_pos hh)
  · exact exec_same_of_onUnit rfl (decide_eq_true ht) (if_pos hh)
  · have hhome := Dev.trackHome_completeMove hm hl hroom
    refine .of_onUnit rfl (decide_eq_true ht) ?_
    rw [if_neg (by simp [hh]), Dev.rstTry_of_idle (hhome.box ▸ hb)]
    exact ⟨hhome.state, hhome.home, hhome.target, hhome.marks, hhome.moves, fun h => congrArg (fun l => SMap.get (fun _ => Thread.reset) l h) hhome.thr,
      hhome.count, hhome.logTail⟩
  · refine .of_onUnit rfl (decide_eq_true ht) ?_
    rw [Dev.drainHold_one hs ho hm hr hroom]
    have hmem : m ∈ s.dev.heldOf t := hm ▸ List.mem_cons_self
    have htrk := Dev.track_of_mem_heldOf hmem hr
    have hid := Dev.id_of_recOf hr
    refine ⟨?_, ?_, fun i hi => ?_⟩
    · show m ∉ (Dev.queueRec _ r).yard.hold
      rw [Dev.queueRec_hold]
      exact fun h => by simpa using (List.mem_filter.1 h).2
    · rw [← hid, ← htrk]
      exact Dev.queueRec_waiting _ r
    · show i ∈ (Dev.queueRec _ r).yard.hold ↔ _
      rw [Dev.queueRec_hold]
      exact List.mem_filter.trans ⟨fun h => h.1, fun h => ⟨h, by simpa using hi⟩⟩

end Sys2Proof.Machine

/-! ## Writes of control space by an agent that may make them -/
namespace Sys2Proof.Machine

open Sys2Proof

/-! ### The way to the register -/

theorem State.mayWriteSlot_iff {s : State} {a : Agent} {n : Nat} :
    s.mayWriteSlot a n = true ↔ agentExists a = true ∧ s.dev.reaches a = true ∧ s.dev.mayWrite a n = true := by
  unfold State.mayWriteSlot; rw [Bool.and_eq_true, Bool.and_eq_true, and_assoc]

/-- The offset `o` is that of an 8-byte register of slot `n` itself: neither a mirror nor a high half (R432). -/
def liveRow (o n : Nat) : Bool :=
  decide (o % 8 = 0 ∧ (placeOf o).slot = n ∧ (placeOf o).reg = o ∧ (placeOf o).high = false ∧ (placeOf o).mirror = false)

/-- The register at `o` is not of the Interlock. -/
def unguarded (o : Nat) : Bool := !(placeOf o).window && (complementOf o).isNone && !isRwi o

theorem Dev.ctrlWrite_wide {d : Dev} {a : Agent} {o n : Nat} (v : Word) (ho : liveRow o n = true) (hr : d.reaches a = true) (hm : d.mayWrite a n = true) :
    d.ctrlWrite a o true v = d.placeWrite a (placeOf o) true (~~~0#64) v := by
  obtain ⟨h8, hslot, -, -, -⟩ := of_decide_eq_true ho
  unfold Dev.ctrlWrite
  simp [hr, hm, h8, hslot]

theorem Dev.ctrlWrite_narrow {d : Dev} {a : Agent} {o n : Nat} (v : Word) (ho : liveRow o n = true) (hr : d.reaches a = true) (hm : d.mayWrite a n = true) :
    d.ctrlWrite a o false v = d.placeWrite a (placeOf o) false 0xFFFFFFFF#64 (word (fld v 0 32)) := by
  obtain ⟨h8, hslot, -, hhigh, -⟩ := of_decide_eq_true ho
  have h4 : o % 4 = 0 := by omega
  unfold Dev.ctrlWrite
  simp [hr, hm, h4, hslot, hhigh]

theorem Dev.placeWrite_unguarded (d : Dev) (a : Agent) {o n : Nat} (wide : Bool) (m v : Word) (ho : liveRow o n = true) (hu : unguarded o = true) :
    d.placeWrite a (placeOf o) wide m v = (d.regWrite a o m v).refreshLevels := by
  obtain ⟨-, -, hreg, -, hmir⟩ := of_decide_eq_true ho
  simp only [unguarded, Bool.and_eq_true, Bool.not_eq_true', Option.isNone_iff_eq_none] at hu
  obtain ⟨⟨hwin, hcomp⟩, hrwi⟩ := hu
  unfold Dev.placeWrite
  simp [hreg, hmir, hcomp, hrwi, hwin]

theorem Dev.placeWrite_guarded (d : Dev) (a : Agent) {o n : Nat} (wide : Bool) (m v : Word) (ho : liveRow o n = true) (hc : complementOf o = none)
    (hg : isRwi o = true) : d.placeWrite a (placeOf o) wide m v = (d.ilkWrite a o false wide v).refreshLevels := by
  obtain ⟨-, -, hreg, -, hmir⟩ := of_decide_eq_true ho
  unfold Dev.placeWrite
  simp [hreg, hmir, hc, hg]

theorem Dev.placeWrite_complement (d : Dev) (a : Agent) {o n p : Nat} (wide : Bool) (m v : Word) (ho : liveRow o n = true)
    (hc : complementOf o = some p) : d.placeWrite a (placeOf o) wide m v = (d.ilkWrite a p true wide v).refreshLevels := by
  obtain ⟨-, -, hreg, -, hmir⟩ := of_decide_eq_true ho
  unfold Dev.placeWrite
  simp [hreg, hmir, hc]

/-! ### What `refreshLevels` leaves: all but the level sources taken -/

@[simp] theorem Dev.refreshLevels_reg (d : Dev) (o : Nat) : d.refreshLevels.reg o = d.reg o := rfl
@[simp] theorem Dev.refreshLevels_rf (d : Dev) (o lo n : Nat) : d.refreshLevels.rf o lo n = d.rf o lo n := rfl
@[simp] theorem Dev.refreshLevels_rb (d : Dev) (o i : Nat) : d.refreshLevels.rb o i = d.rb o i := rfl
@[simp] theorem Dev.refreshLevels_edges (d : Dev) : d.refreshLevels.edges = d.edges := rfl
@[simp] theorem Dev.refreshLevels_sel (d : Dev) (q : Nat) : d.refreshLevels.sel q = d.sel q := rfl
@[simp] theorem Dev.refreshLevels_ring (d : Dev) : d.refreshLevels.ring = d.ring := rfl
@[simp] theorem Dev.refreshLevels_ilk (d : Dev) : d.refreshLevels.box.ilk = d.box.ilk := rfl
@[simp] theorem Dev.refreshLevels_routes (d : Dev) : d.refreshLevels.box.routes = d.box.routes := rfl
@[simp] theorem Dev.refreshLevels_route (d : Dev) (q : Nat) : d.refreshLevels.route q = d.route q := rfl

/-- Threads and memories as they were. -/
def Dev.KeepsWork (d e : Dev) : Prop := e.thr = d.thr ∧ e.mem = d.mem

theorem Dev.KeepsWork.refl (d : Dev) : d.KeepsWork d := ⟨rfl, rfl⟩
theorem Dev.KeepsWork.trans {d e f : Dev} (h : d.KeepsWork e) (k : e.KeepsWork f) : d.KeepsWork f := ⟨k.1.trans h.1, k.2.trans h.2⟩
theorem Dev.KeepsWork.foldl {α : Type} (f : Dev → α → Dev) (h : ∀ (e : Dev) (x : α), e.KeepsWork (f e x)) (l : List α) (d : Dev) :
    d.KeepsWork (l.foldl f d) :=
  foldl_keeps d.KeepsWork f (fun _ _ he => he.trans (h _ _)) l d (.refl d)
theorem Dev.keepsWork_setReg (d : Dev) (o : Nat) (v : Word) : d.KeepsWork (d.setReg o v) := ⟨rfl, rfl⟩
theorem Dev.keepsWork_setRb (d : Dev) (o i : Nat) (b : Bool) : d.KeepsWork (d.setRb o i b) := ⟨rfl, rfl⟩
theorem Dev.keepsWork_withBox (d : Dev) (f : SigBox → SigBox) : d.KeepsWork (d.withBox f) := ⟨rfl, rfl⟩
theorem Dev.KeepsWork.refreshLevels {d e : Dev} (h : d.KeepsWork e) : d.KeepsWork e.refreshLevels := h.trans (e.keepsWork_withBox _)

theorem State.keeps_withDev {s : State} {e : Dev} (h : s.dev.KeepsWork e) : s.keeps (s.withDev e) :=
  ⟨fun g => congrArg (fun l => SMap.get (fun _ => Thread.reset) l g) h.1, h.2⟩

/-! ### Commands that write a register -/

/-- A command that is an 8-byte write of an unguarded register. -/
theorem Completes.of_wideWrite {i : Instr} {s : State} {a : Agent} {o n : Nat} {v : Word} {P : State → Prop}
    (hi : exec i s = onUnit (agentExists a) s (fun d => d.ctrlWrite a o true v)) (ho : liveRow o n = true) (hu : unguarded o = true)
    (hm : s.mayWriteSlot a n = true) (hP : P (s.withDev (s.dev.regWrite a o (~~~0#64) v).refreshLevels)) : Completes i s P := by
  obtain ⟨ha, hr, hw⟩ := State.mayWriteSlot_iff.1 hm
  refine .of_onUnit hi ha ?_
  rw [Dev.ctrlWrite_wide v ho hr hw, Dev.placeWrite_unguarded _ a true _ v ho hu]
  exact hP

theorem word_fld_setWidth (w : BitVec 32) : word (fld (w.setWidth 64) 0 32) = w.setWidth 64 := by
  have h : fld (w.setWidth 64) 0 32 = w.toNat := by
    unfold fld
    rw [BitVec.toNat_setWidth, Nat.pow_zero, Nat.div_one]
    have := w.isLt
    omega
  rw [h]
  exact BitVec.eq_of_toNat_eq (by simp [word])

theorem bit_setWidth (w : BitVec 32) (i : Nat) : bit (w.setWidth 64) i = w.getLsbD i := by
  unfold bit
  rw [BitVec.getLsbD_setWidth]
  by_cases h : i < 64
  · rw [decide_eq_true h, Bool.true_and]
  · rw [decide_eq_false h, Bool.false_and, BitVec.getLsbD_of_ge w i (by omega)]

/-- A command that is a 4-byte write of the low half of an unguarded register. -/
theorem Completes.of_narrowWrite {i : Instr} {s : State} {a : Agent} {o n : Nat} {w : BitVec 32} {P : State → Prop}
    (hi : exec i s = onUnit (agentExists a) s (fun d => d.ctrlWrite a o false (w.setWidth 64))) (ho : liveRow o n = true) (hu : unguarded o = true)
    (hm : s.mayWriteSlot a n = true) (hP : P (s.withDev (s.dev.regWrite a o 0xFFFFFFFF#64 (w.setWidth 64)).refreshLevels)) : Completes i s P := by
  obtain ⟨ha, hr, hw⟩ := State.mayWriteSlot_iff.1 hm
  refine .of_onUnit hi ha ?_
  rw [Dev.ctrlWrite_narrow _ ho hr hw, Dev.placeWrite_unguarded _ a false _ _ ho hu, word_fld_setWidth]
  exact hP

/-! ### Registers whose fields take effect at once -/

/-- The register at `o` goes by its fields alone: it is none of those that regWrite gives a meaning of their own, and no field of it is
locked or of the always-on domain. -/
def ordinaryReg (o : Nat) : Bool :=
  decide (o ≠ rCfgIrtData ∧ o ≠ rJnlQdata ∧ o ≠ rClkTmrdl ∧ o ≠ rClkTmrctl ∧ ¬ (16 ≤ o / 4096 ∧ o / 4096 < 24))
  && decide (classMask o .rwl = 0#64) && decide (classMask o .rws = 0#64)

/-- The fields of an ordinary register after a write of the bits `m`. -/
def Dev.fieldsWritten (d : Dev) (o : Nat) (m v : Word) : Word := clampWritten o (writeFields o (d.reg o) m v (d.rb rCfgLock (o / 4096)))

theorem Dev.bufferRwe_none (d : Dev) {o : Nat} (m v : Word) (h : classMask o .rwe = 0#64) : d.bufferRwe o m v = d := by
  unfold Dev.bufferRwe; simp [h]
theorem Dev.bufferRws_none (d : Dev) {o : Nat} (m v : Word) (h : classMask o .rws = 0#64) : d.bufferRws o m v = d := by
  unfold Dev.bufferRws; simp [h]

theorem Dev.regWrite_ordinary (d : Dev) (a : Agent) {o : Nat} (m v : Word) (h : ordinaryReg o = true) (hf : d.frozenBits o = 0#64) :
    d.regWrite a o m v = ((d.bufferRwe o m v).setReg o
      (clampWritten o (writeFields o ((d.bufferRwe o m v).reg o) m v (d.rb rCfgLock (o / 4096))))).regAction o (m &&& v) (!d.rb o 0) := by
  simp only [ordinaryReg, Bool.and_eq_true, decide_eq_true_eq] at h
  obtain ⟨⟨⟨h1, h2, h3, h4, h5⟩, hl⟩, hs⟩ := h
  have hm : m &&& ~~~(0#64) = m := BitVec.and_allOnes
  unfold Dev.regWrite
  simp only [hf, hm, if_neg h1, if_neg h2, if_neg h3, if_neg h4, if_neg (fun k : 16 ≤ o / 4096 ∧ o / 4096 < 24 ∧ o % 4096 = 0x20 => h5 ⟨k.1, k.2.1⟩),
    if_neg (fun k : 16 ≤ o / 4096 ∧ o / 4096 < 24 ∧ o % 4096 = 0x28 => h5 ⟨k.1, k.2.1⟩)]
  rw [if_neg (by simp [hl]), Dev.bufferRws_none _ _ _ hs]

/-- A register without fields that wait for a boundary. -/
theorem Dev.regWrite_atOnce (d : Dev) (a : Agent) {o : Nat} (m v : Word) (h : ordinaryReg o = true) (hf : d.frozenBits o = 0#64)
    (he : classMask o .rwe = 0#64) :
    d.regWrite a o m v = (d.setReg o (d.fieldsWritten o m v)).regAction o (m &&& v) (!d.rb o 0) := by
  rw [d.regWrite_ordinary a m v h hf, d.bufferRwe_none m v he]; rfl

/-- A register that nothing follows the write of. -/
def quietReg (o : Nat) : Bool :=
  decide (o ≠ rCfgSwi ∧ o ≠ rYrdPincmd ∧ o ≠ rQmKdb ∧ o ≠ rQmKqsel ∧ o ≠ rLlLupd ∧ o ≠ rMicHeal ∧ o ≠ rClkTodstep ∧ o ≠ rTrgCtl ∧ o ≠ rTrgExpCtl
    ∧ o ≠ rTrgRplCtl ∧ o ≠ rPciMbxCmd 0 ∧ o ≠ rPciMbxCmd 1 ∧ ¬ (16 ≤ o / 4096 ∧ o / 4096 < 24))

theorem Dev.regAction_quiet (d : Dev) {o : Nat} (w : Word) (fresh : Bool) (h : quietReg o = true) : d.regAction o w fresh = d := by
  obtain ⟨h1, h2, h3, h4, h5, h6, h7, h8, h9, h10, h11, h12, h13⟩ := of_decide_eq_true h
  unfold Dev.regAction
  simp only [if_neg h1, if_neg h2, if_neg h3, if_neg h4, if_neg h5, if_neg h6, if_neg h7, if_neg h8, if_neg h9, if_neg h10, if_neg h11, if_neg h12,
    if_neg (fun k : 16 ≤ o / 4096 ∧ o / 4096 < 24 ∧ o % 4096 = 0x38 => h13 ⟨k.1, k.2.1⟩)]

end Sys2Proof.Machine

/-! ## Commands that write an ordinary register: locks, software interrupts, sampling, Yard -/
namespace Sys2Proof.Machine

open Sys2Proof

theorem word_and_ones (w : Word) : w &&& 0xFFFFFFFFFFFFFFFF#64 = w := BitVec.and_allOnes
theorem word_ones_and (w : Word) : 0xFFFFFFFFFFFFFFFF#64 &&& w = w := BitVec.allOnes_and

/-- What a write leaves of a register without lockable fields, by the masks of its classes. -/
theorem writeFields_eq {o : Nat} {rw w1c w1s : Word} (old m v : Word) (locked : Bool) (hrw : classMask o .rw ||| classMask o .ctr ||| classMask o .rwt = rw)
    (hl : classMask o .rwl = 0#64) (hc : classMask o .w1c = w1c) (hs : classMask o .w1s = w1s) :
    writeFields o old m v locked = (merge (rw &&& m) old v &&& ~~~(w1c &&& m &&& v)) ||| (w1s &&& m &&& v) := by
  have hz : (if locked then (0 : Word) else 0#64) = 0#64 := ite_self _
  unfold writeFields
  simp only [hrw, hl, hc, hs, hz, BitVec.or_zero]

theorem merge_zero (old v : Word) : merge 0#64 old v = old := by unfold merge; simp [word_and_ones]

/-- A register of no class that takes a write keeps its value. -/
theorem writeFields_none {o : Nat} (old m v : Word) (locked : Bool) (hrw : classMask o .rw ||| classMask o .ctr ||| classMask o .rwt = 0#64)
    (hl : classMask o .rwl = 0#64) (hc : classMask o .w1c = 0#64) (hs : classMask o .w1s = 0#64) : writeFields o old m v locked = old := by
  rw [writeFields_eq old m v locked hrw hl hc hs]
  simp only [BitVec.zero_and, merge_zero, BitVec.or_zero]
  exact BitVec.and_allOnes

theorem clampWritten_ne {o : Nat} (v : Word) (h : o ≠ rClkTodadj) (h' : o ≠ rTrgWin) : clampWritten o v = v := by
  unfold clampWritten; rw [if_neg h, if_neg h']

/-! ### Locks (R441) and sampling (R449) -/

theorem Dev.regWrite_cfgLock (d : Dev) (a : Agent) (v : Word) : d.regWrite a rCfgLock (~~~0#64) v = d.setReg rCfgLock (d.reg rCfgLock ||| v) := by
  rw [d.regWrite_atOnce a _ v (by decide) rfl (by decide), Dev.regAction_quiet _ _ _ (by decide)]
  unfold Dev.fieldsWritten
  rw [clampWritten_ne _ (by decide) (by decide), writeFields_eq (rw := 0#64) (w1c := 0#64) (w1s := ~~~0#64) _ _ _ _
      (by decide) (by decide) (by decide) (by decide)]
  congr 1
  simp [merge, word_and_ones, word_ones_and]

theorem Dev.regWrite_snpCtl (d : Dev) (a : Agent) : d.regWrite a rSnpCtl (~~~0#64) 1 = d.setReg rSnpCtl (d.reg rSnpCtl ||| 1#64) := by
  rw [d.regWrite_atOnce a _ _ (by decide) rfl (by decide), Dev.regAction_quiet _ _ _ (by decide)]
  unfold Dev.fieldsWritten
  rw [clampWritten_ne _ (by decide) (by decide), writeFields_eq (rw := 0#64) (w1c := 2#64) (w1s := 1#64) _ _ _ _
      (by decide) (by decide) (by decide) (by decide)]
  congr 1
  simp [merge, word_and_ones]

theorem cfgLockWrite_sets {s : State} {a : Agent} (v : Word) (hm : s.mayWriteSlot a 0 = true) : Completes (.cfgLockWrite a v) s (fun t =>
    s.keeps t ∧ t.dev.reg rCfgLock = s.dev.reg rCfgLock ||| v ∧ ∀ q, q ≠ rCfgLock → t.dev.reg q = s.dev.reg q) := by
  refine .of_wideWrite (o := rCfgLock) rfl (by decide) (by decide) hm ?_
  rw [Dev.regWrite_cfgLock]
  exact ⟨State.keeps_withDev (s.dev.keepsWork_setReg _ _).refreshLevels, Dev.reg_setReg_same _ _ _, fun q hq => by
    rw [State.dev_withDev, Dev.refreshLevels_reg, Dev.reg_setReg, if_neg hq]⟩

theorem snpGo_sets {s : State} {a : Agent} (hm : s.mayWriteSlot a 1 = true) : Completes (.snpGo a) s (fun t =>
    s.keeps t ∧ t.dev.rb rSnpCtl 0 = true ∧ ∀ q, q ≠ rSnpCtl → t.dev.reg q = s.dev.reg q) := by
  refine .of_wideWrite (o := rSnpCtl) rfl (by decide) (by decide) hm ?_
  rw [Dev.regWrite_snpCtl]
  refine ⟨State.keeps_withDev (s.dev.keepsWork_setReg _ _).refreshLevels, ?_, fun q hq => ?_⟩
  · rw [State.dev_withDev, Dev.refreshLevels_rb, Dev.rb, Dev.reg_setReg_same]
    simp [bit]
  · rw [State.dev_withDev, Dev.refreshLevels_reg, Dev.reg_setReg, if_neg hq]

/-! ### Software interrupts (R292) -/

theorem Dev.mem_edge (d : Dev) (n k : Nat) : k ∈ (d.edge n).edges ↔ k ∈ d.edges ∨ k = n := by
  unfold Dev.edge; split
  · next h => exact ⟨.inl, fun h' => h'.elim id (fun e => e ▸ List.contains_iff_mem.1 h)⟩
  · exact List.mem_append.trans (or_congr_right List.mem_singleton)
theorem Dev.keepsWork_edge (d : Dev) (n : Nat) : d.KeepsWork (d.edge n) := by
  unfold Dev.edge; split
  · exact .refl d
  · exact ⟨rfl, rfl⟩

/-- The edges that the bits of a word make. -/
theorem Dev.mem_swiEdges (d : Dev) (w : Word) (l : List Nat) (k : Nat) :
    k ∈ (l.foldl (fun d n => if bit w n then d.edge (224 + n) else d) d).edges ↔ k ∈ d.edges ∨ ∃ n ∈ l, bit w n = true ∧ k = 224 + n := by
  induction l generalizing d with
  | nil => simp
  | cons m l ih =>
    rw [List.foldl_cons, ih]
    by_cases hm : bit w m = true
    · simp only [hm, if_true, Dev.mem_edge, List.mem_cons, exists_eq_or_imp, true_and, or_assoc]
    · simp only [hm, List.mem_cons, exists_eq_or_imp, false_and, false_or, Bool.false_eq_true, if_false]

theorem Dev.regWrite_cfgSwi (d : Dev) (a : Agent) (m v : Word) : ∃ x, d.regWrite a rCfgSwi m v =
    (List.range 32).foldl (fun d n => if bit (m &&& v) n then d.edge (224 + n) else d) (d.setReg rCfgSwi x) := by
  refine ⟨d.fieldsWritten rCfgSwi m v, (d.regWrite_atOnce a _ v (by decide) rfl (by decide)).trans ?_⟩
  unfold Dev.regAction
  rw [if_pos rfl]

theorem cfgSwi_makes_edges {s : State} {a : Agent} (w : BitVec 32) (hm : s.mayWriteSlot a 0 = true) : Completes (.cfgSwi a w) s (fun t =>
    s.keeps t ∧ ∀ k, k ∈ t.dev.edges ↔ k ∈ s.dev.edges ∨ ∃ n, n < 32 ∧ w.getLsbD n = true ∧ k = 224 + n) := by
  refine .of_narrowWrite (o := rCfgSwi) rfl (by decide) (by decide) hm ?_
  obtain ⟨x, hx⟩ := s.dev.regWrite_cfgSwi a 0xFFFFFFFF#64 (w.setWidth 64)
  rw [hx]
  refine ⟨State.keeps_withDev (((s.dev.keepsWork_setReg _ x).trans (.foldl _ (fun e n => ?_) _ _)).refreshLevels), fun k => ?_⟩
  · split
    · exact e.keepsWork_edge _
    · exact .refl e
  · have hbit : ∀ n, n < 32 → bit (0xFFFFFFFF#64 &&& w.setWidth 64) n = w.getLsbD n := fun n hn => by
      have h1 : ∀ n, n < 32 → (0xFFFFFFFF#64 : Word).getLsbD n = true := by decide
      rw [← bit_setWidth w n, bit, BitVec.getLsbD_and, h1 n hn, Bool.true_and]
      rfl
    rw [State.dev_withDev, Dev.refreshLevels_edges, Dev.mem_swiEdges]
    refine or_congr_right (exists_congr fun n => ?_)
    rw [List.mem_range]
    exact ⟨fun ⟨hn, hb, hk⟩ => ⟨hn, hbit n hn ▸ hb, hk⟩, fun ⟨hn, hb, hk⟩ => ⟨hn, (hbit n hn).trans hb, hk⟩⟩

end Sys2Proof.Machine

/-! ## Commands of the Yard's registers: pins, snapshots, forbidden clusters -/
namespace Sys2Proof.Machine

open Sys2Proof

/-! ### Pins (R109, R117) -/

theorem fld_word {n : Nat} (lo k : Nat) (h : n < 2 ^ 64) : fld (word n) lo k = n / 2 ^ lo % 2 ^ k := by
  unfold fld word
  rw [BitVec.toNat_ofNat, Nat.mod_eq_of_lt h]

theorem Dev.regWrite_yrdPincmd (d : Dev) (a : Agent) (v : Word) :
    d.regWrite a rYrdPincmd (~~~0#64) v = (d.setReg rYrdPincmd (d.reg rYrdPincmd)).pinWrite v := by
  rw [d.regWrite_atOnce a _ v (by decide) rfl (by decide)]
  unfold Dev.fieldsWritten Dev.regAction
  rw [clampWritten_ne _ (by decide) (by decide), writeFields_none _ _ _ _ (by decide) (by decide) (by decide) (by decide), if_neg (by decide),
    if_pos rfl, show ~~~0#64 &&& v = v from word_ones_and v]

/-- A pin or an unpin that finds room in the queue. -/
theorem Dev.pinWrite_room {d : Dev} {w : Word} (hop : fld w 24 2 = 1 ∨ fld w 24 2 = 2) (h : d.yard.pinq.length < 64) :
    d.pinWrite w = d.withYard (fun y => { y with pinq := y.pinq ++ [⟨decide (fld w 24 2 = 1), fld w 16 5, fld w 0 16⟩] }) := by
  unfold Dev.pinWrite; dsimp only
  rw [if_neg (by omega), if_neg (by omega)]
theorem Dev.pinWrite_full {d : Dev} {w : Word} (hop : fld w 24 2 = 1 ∨ fld w 24 2 = 2) (h : 64 ≤ d.yard.pinq.length) :
    d.pinWrite w = d.setRb rYrdErr 0 true := by
  unfold Dev.pinWrite; dsimp only
  rw [if_neg (by omega), if_pos h]

/-- The fields of the word of PIN_COMMAND. -/
theorem pinWord_fields (c : BitVec 5) (t : BitVec 16) :
    fld (word (2 ^ 24 + c.toNat * 2 ^ 16 + t.toNat)) 24 2 = 1 ∧ fld (word (2 ^ 24 + c.toNat * 2 ^ 16 + t.toNat)) 16 5 = c.toNat
    ∧ fld (word (2 ^ 24 + c.toNat * 2 ^ 16 + t.toNat)) 0 16 = t.toNat := by
  have hc := c.isLt
  have ht := t.isLt
  rw [fld_word _ _ (by omega), fld_word _ _ (by omega), fld_word _ _ (by omega)]
  omega
theorem unpinWord_fields (t : BitVec 16) :
    fld (word (2 * 2 ^ 24 + t.toNat)) 24 2 = 2 ∧ fld (word (2 * 2 ^ 24 + t.toNat)) 16 5 = 0 ∧ fld (word (2 * 2 ^ 24 + t.toNat)) 0 16 = t.toNat := by
  have ht := t.isLt
  rw [fld_word _ _ (by omega), fld_word _ _ (by omega), fld_word _ _ (by omega)]
  omega

/-- A command that writes YRD_PINCMD a pin or an unpin with room in the queue. -/
theorem Completes.of_pinWrite {i : Instr} {s : State} {a : Agent} {w : Word} (hi : exec i s = onUnit (agentExists a) s (fun d => d.ctrlWrite a rYrdPincmd true w))
    (hm : s.mayWriteSlot a 2 = true) (hop : fld w 24 2 = 1 ∨ fld w 24 2 = 2) (hroom : s.dev.yard.pinq.length < 64) :
    Completes i s (fun t => s.keeps t ∧ t.dev.yard = { s.dev.yard with pinq := s.dev.yard.pinq ++ [⟨decide (fld w 24 2 = 1), fld w 16 5, fld w 0 16⟩] }) := by
  refine .of_wideWrite hi (by decide) (by decide) hm ?_
  rw [Dev.regWrite_yrdPincmd, Dev.pinWrite_room (d := s.dev.setReg _ _) hop hroom]
  exact ⟨State.keeps_withDev (Dev.KeepsWork.refreshLevels ⟨rfl, rfl⟩), rfl⟩

theorem pinCommand_full {s : State} {a : Agent} (c : BitVec 5) (tr : BitVec 16) (hm : s.mayWriteSlot a 2 = true) (hfull : 64 ≤ s.dev.yard.pinq.length) :
    Completes (.pinCommand a c tr) s (fun t => s.keeps t ∧ t.dev.yard = s.dev.yard ∧ t.dev.rb rYrdErr 0 = true) := by
  refine .of_wideWrite (o := rYrdPincmd) rfl (by decide) (by decide) hm ?_
  rw [Dev.regWrite_yrdPincmd, Dev.pinWrite_full (d := s.dev.setReg _ _) (.inl (pinWord_fields c tr).1) hfull]
  refine ⟨State.keeps_withDev (Dev.KeepsWork.refreshLevels ⟨rfl, rfl⟩), rfl, ?_⟩
  rw [State.dev_withDev, Dev.refreshLevels_rb, Dev.rb_setRb_same _ _ true (by decide)]

theorem pinCommand_queues {s : State} {a : Agent} (c : BitVec 5) (tr : BitVec 16) (hm : s.mayWriteSlot a 2 = true) (hroom : s.dev.yard.pinq.length < 64) :
    Completes (.pinCommand a c tr) s (fun t => s.keeps t ∧ t.dev.yard = { s.dev.yard with pinq := s.dev.yard.pinq ++ [⟨true, c.toNat, tr.toNat⟩] }) := by
  obtain ⟨hop, hcl, htr⟩ := pinWord_fields c tr
  have h := Completes.of_pinWrite (i := .pinCommand a c tr) rfl hm (.inl hop) hroom
  rw [hop, hcl, htr] at h
  exact h

theorem unpinCommand_queues {s : State} {a : Agent} (tr : BitVec 16) (hm : s.mayWriteSlot a 2 = true) (hroom : s.dev.yard.pinq.length < 64) :
    Completes (.unpinCommand a tr) s (fun t => s.keeps t ∧ t.dev.yard = { s.dev.yard with pinq := s.dev.yard.pinq ++ [⟨false, 0, tr.toNat⟩] }) := by
  obtain ⟨hop, hcl, htr⟩ := unpinWord_fields tr
  have h := Completes.of_pinWrite (i := .unpinCommand a tr) rfl hm (.inr hop) hroom
  rw [hop, hcl, htr] at h
  exact h

/-! ### Snapshots (R120) -/

/-- The value of YRD_SNAP after GO is written with the place and the size in `v`: the bits of its RW fields are those of `v`. -/
def snapGone (old v : Word) : Word := (merge 0xFFFFFFFFF300#64 old v &&& ~~~(6#64 &&& v)) ||| (1#64 &&& v)

theorem Dev.regWrite_yrdSnap {d : Dev} (a : Agent) (v : Word) (h : d.rb rYrdSnap 0 = false) :
    d.regWrite a rYrdSnap (~~~0#64) v = d.setReg rYrdSnap (snapGone (d.reg rYrdSnap) v) := by
  have hf : d.frozenBits rYrdSnap = 0#64 := by
    show (if d.rb rYrdSnap 0 then _ else 0#64) = 0#64
    rw [h]; rfl
  rw [d.regWrite_atOnce a _ v (by decide) hf (by decide), Dev.regAction_quiet _ _ _ (by decide)]
  unfold Dev.fieldsWritten
  rw [clampWritten_ne _ (by decide) (by decide), writeFields_eq (rw := 0xFFFFFFFFF300#64) (w1c := 6#64) (w1s := 1#64) _ _ _ _
      (by decide) (by decide) (by decide) (by decide)]
  rfl

/-- A field of YRD_SNAP that lies within its RW bits is that of the value written. -/
theorem fld_snapGone (old v : Word) {lo n : Nat} (h : ∀ i < n, (0xFFFFFFFFF300#64 : Word).getLsbD (lo + i) = true)
    (h' : ∀ i < n, (7#64 : Word).getLsbD (lo + i) = false) : fld (snapGone old (v ||| 1#64)) lo n = fld v lo n := by
  refine Nat.eq_of_testBit_eq fun i => ?_
  rw [testBit_fld, testBit_fld]
  by_cases hi : i < n
  · have h7 := h' i hi
    have h64 : lo + i < 64 := BitVec.lt_of_getLsbD (h i hi)
    rw [show (7#64 : Word) = 6#64 ||| 1#64 from rfl, BitVec.getLsbD_or, Bool.or_eq_false_iff] at h7
    simp only [snapGone, merge, BitVec.getLsbD_or, BitVec.getLsbD_and, BitVec.getLsbD_not, h i hi, h7.1, h7.2, h64]
    simp
  · simp [hi]

theorem yrdSnapGo_starts {s : State} {a : Agent} (v : Word) (hm : s.mayWriteSlot a 2 = true) (h : s.dev.rb rYrdSnap 0 = false) :
    Completes (.yrdSnapGo a v) s (fun t => s.keeps t ∧
      t.dev.rb rYrdSnap 0 = true ∧ t.dev.rf rYrdSnap 12 36 = fld v 12 36 ∧ t.dev.rf rYrdSnap 8 2 = fld v 8 2) := by
  refine .of_wideWrite (o := rYrdSnap) rfl (by decide) (by decide) hm ?_
  rw [Dev.regWrite_yrdSnap a _ h]
  refine ⟨State.keeps_withDev (s.dev.keepsWork_setReg _ _).refreshLevels, ?_, ?_, ?_⟩
  · rw [State.dev_withDev, Dev.refreshLevels_rb, Dev.rb, Dev.reg_setReg_same]
    simp [bit, snapGone]
  · rw [State.dev_withDev, Dev.refreshLevels_rf, Dev.rf, Dev.reg_setReg_same]
    exact fld_snapGone _ v (by decide) (by decide)
  · rw [State.dev_withDev, Dev.refreshLevels_rf, Dev.rf, Dev.reg_setReg_same]
    exact fld_snapGone _ v (by decide) (by decide)

/-! ### Forbidden clusters (R110, R111) -/

/-- Whether no cluster would be eligible with `w` in YRD_FORBID (R111). -/
def Dev.allForbidden (d : Dev) (w : BitVec 32) : Bool := (List.range Config.clusters).all (fun k => w.getLsbD k || d.rb rPwrNapen k)

theorem merge_low (old : Word) (w : BitVec 32) : merge 0xFFFFFFFF#64 old (w.setWidth 64) &&& 0xFFFFFFFF#64 = w.setWidth 64 := by
  refine BitVec.eq_of_getLsbD_eq fun i hi => ?_
  have hmask : (0xFFFFFFFF#64 : Word).getLsbD i = decide (i < 32) := by revert i; decide
  simp only [merge, BitVec.getLsbD_or, BitVec.getLsbD_and, BitVec.getLsbD_not, BitVec.getLsbD_setWidth, hmask]
  by_cases h : i < 32
  · simp [h, hi]
  · simp [h, BitVec.getLsbD_of_ge w i (by omega)]

theorem Dev.rweOf_setRwe_same (d : Dev) (o : Nat) (v : Option Word) : (d.setRwe o v).rweOf o = v :=
  SMap.get_set_same (fun _ => (none : Option Word)) _ _ _

theorem Dev.bufferRwe_yrdForbid (d : Dev) (w : BitVec 32) :
    d.bufferRwe rYrdForbid 0xFFFFFFFF#64 (w.setWidth 64)
      = if d.allForbidden w then d.setRb rYrdErr 1 true else d.setRwe rYrdForbid (some (w.setWidth 64)) := by
  have he : classMask rYrdForbid .rwe = 0xFFFFFFFF#64 := by decide
  unfold Dev.bufferRwe
  simp only [he, merge_low, bit_setWidth]
  simp [Dev.allForbidden]

theorem Dev.regWrite_yrdForbid (d : Dev) (a : Agent) (w : BitVec 32) : ∃ e, e = d.bufferRwe rYrdForbid 0xFFFFFFFF#64 (w.setWidth 64) ∧
    d.regWrite a rYrdForbid 0xFFFFFFFF#64 (w.setWidth 64) = e.setReg rYrdForbid (e.reg rYrdForbid) := by
  refine ⟨_, rfl, ?_⟩
  rw [d.regWrite_ordinary a _ _ (by decide) rfl, Dev.regAction_quiet _ _ _ (by decide), clampWritten_ne _ (by decide) (by decide),
    writeFields_none _ _ _ _ (by decide) (by decide) (by decide) (by decide)]

theorem yrdForbidWrite_buffers {s : State} {a : Agent} (w : BitVec 32) (hm : s.mayWriteSlot a 2 = true) (h : s.dev.allForbidden w = false) :
    Completes (.yrdForbidWrite a w) s (fun t =>
      s.keeps t ∧ t.dev.rweOf rYrdForbid = some (w.setWidth 64) ∧ t.dev.reg rYrdForbid = s.dev.reg rYrdForbid) := by
  refine .of_narrowWrite (o := rYrdForbid) rfl (by decide) (by decide) hm ?_
  obtain ⟨e, he, hw⟩ := s.dev.regWrite_yrdForbid a w
  rw [Dev.bufferRwe_yrdForbid, h, if_neg (by decide)] at he
  rw [hw]
  have hk : s.dev.KeepsWork e := he ▸ s.dev.keepsWork_withBox _
  have hreg : e.reg rYrdForbid = s.dev.reg rYrdForbid := by rw [he]; rfl
  have hrwe : e.rweOf rYrdForbid = some (w.setWidth 64) := by rw [he]; exact Dev.rweOf_setRwe_same _ _ _
  exact ⟨State.keeps_withDev (hk.trans (e.keepsWork_setReg _ _)).refreshLevels, hrwe, (Dev.reg_setReg_same _ _ _).trans hreg⟩

theorem yrdForbidWrite_refuses {s : State} {a : Agent} (w : BitVec 32) (hm : s.mayWriteSlot a 2 = true) (h : s.dev.allForbidden w = true) :
    Completes (.yrdForbidWrite a w) s (fun t =>
      s.keeps t ∧ t.dev.rweOf rYrdForbid = s.dev.rweOf rYrdForbid ∧ t.dev.rb rYrdErr 1 = true) := by
  refine .of_narrowWrite (o := rYrdForbid) rfl (by decide) (by decide) hm ?_
  obtain ⟨e, he, hw⟩ := s.dev.regWrite_yrdForbid a w
  rw [Dev.bufferRwe_yrdForbid, h, if_pos rfl] at he
  rw [hw]
  have hk : s.dev.KeepsWork e := he ▸ s.dev.keepsWork_setRb _ _ _
  have hrwe : e.rweOf rYrdForbid = s.dev.rweOf rYrdForbid := by rw [he]; rfl
  have herr : e.rb rYrdErr 1 = true := he ▸ Dev.rb_setRb_same _ _ true (by decide)
  refine ⟨State.keeps_withDev (hk.trans (e.keepsWork_setReg _ _)).refreshLevels, hrwe, ?_⟩
  rw [State.dev_withDev, Dev.refreshLevels_rb, ← herr]
  refine Dev.rb_congr ?_ 1
  rw [Dev.reg_setReg, if_neg (by decide)]

end Sys2Proof.Machine

/-! ## Interrupt routes and journal selections -/
namespace Sys2Proof.Machine

open Sys2Proof

/-! ### The low half of a word -/

theorem getLsbD_of_low {x : Word} {w : BitVec 32} (h : x &&& 0xFFFFFFFF#64 = w.setWidth 64) {i : Nat} (hi : i < 32) : x.getLsbD i = w.getLsbD i := by
  have hmask : ∀ i, i < 32 → (0xFFFFFFFF#64 : Word).getLsbD i = true := by decide
  rw [← bit_setWidth w i, ← h, bit, BitVec.getLsbD_and, hmask i hi, Bool.and_true]

theorem fld_of_low {x : Word} {w : BitVec 32} (h : x &&& 0xFFFFFFFF#64 = w.setWidth 64) {lo n : Nat} (hn : lo + n ≤ 32) :
    fld x lo n = w.toNat / 2 ^ lo % 2 ^ n := by
  refine Nat.eq_of_testBit_eq fun i => ?_
  rw [testBit_fld, Nat.testBit_mod_two_pow, Nat.testBit_div_two_pow, Nat.add_comm i lo]
  by_cases hi : i < n
  · rw [getLsbD_of_low h (by omega)]; rfl
  · simp [hi]

/-! ### Routes (R289, R292) -/

/-- A route whose vector or thread there is not (R292). -/
def badRoute (w : BitVec 32) : Prop := (w.getLsbD 31 = true ∧ w.toNat / 2 ^ 16 % 256 < 32) ∨ Config.threads ≤ w.toNat % 4096

theorem Dev.capture_box (d : Dev) (c kind loc sub addr : Nat) (p : List Byte) : (d.capture c kind loc sub addr p).box = d.box :=
  (d.steady_capture c kind loc sub addr p).box
theorem Dev.setIrq_box (d : Dev) (g : Nat) (i : PendingIrq) : (d.setIrq g i).box = d.box := by
  unfold Dev.setIrq; exact Dev.capture_box _ _ _ _ _ _ _

/-- The router's taking of an event leaves the routes. -/
theorem Dev.routeEvent_routes (d : Dev) (n : Nat) : (d.routeEvent n).box.routes = d.box.routes := by
  have hirq : ∀ (e : Dev) (c : Bool) (g : Nat) (i : PendingIrq), (if c then e.setIrq g i else e).box.routes = e.box.routes := fun e c g i => by
    split
    · rw [Dev.setIrq_box]
    · rfl
  unfold Dev.routeEvent
  refine (hirq _ _ _ _).trans ?_
  dsimp only
  split
  · rfl
  · rfl

theorem Dev.routeWrite_bad {d : Dev} {x : Word} {w : BitVec 32} (hx : x &&& 0xFFFFFFFF#64 = w.setWidth 64) (h : badRoute w) :
    d.routeWrite x = d.setRb rCfgIrtSel 63 true := by
  unfold Dev.routeWrite; dsimp only
  rw [fld_of_low hx (by decide), fld_of_low hx (by decide), bit, getLsbD_of_low hx (by decide), if_pos]
  simpa [badRoute] using h

theorem Dev.routeWrite_good {d : Dev} {x : Word} {w : BitVec 32} (hx : x &&& 0xFFFFFFFF#64 = w.setWidth 64) (h : ¬ badRoute w) (q : Nat) :
    (d.routeWrite x).route q = if q = d.rf rCfgIrtSel 0 12 then w.setWidth 64 &&& routeFields else d.route q := by
  have hval : x &&& routeFields = w.setWidth 64 &&& routeFields := by
    rw [← hx, BitVec.and_assoc, show 0xFFFFFFFF#64 &&& routeFields = routeFields from by decide]
  unfold Dev.routeWrite; dsimp only
  rw [fld_of_low hx (by decide), fld_of_low hx (by decide), bit, getLsbD_of_low hx (by decide), if_neg (by simpa [badRoute] using h), hval]
  generalize d.rf rCfgIrtSel 0 12 = n
  unfold Dev.route
  rw [Dev.withBox_own]; dsimp only
  rw [SMap.get_set]
  split
  · rfl
  · split
    · rw [Dev.routeEvent_routes]
    · rfl

theorem Dev.regWrite_cfgIrtData (d : Dev) (a : Agent) (w : BitVec 32) :
    ∃ x, x &&& 0xFFFFFFFF#64 = w.setWidth 64 ∧ d.regWrite a rCfgIrtData 0xFFFFFFFF#64 (w.setWidth 64) = d.routeWrite x := by
  have hf : 0xFFFFFFFF#64 &&& ~~~d.frozenBits rCfgIrtData = 0xFFFFFFFF#64 := by
    rw [show d.frozenBits rCfgIrtData = 0#64 from rfl]; decide
  refine ⟨merge 0xFFFFFFFF#64 (d.liveValue rCfgIrtData) (w.setWidth 64), merge_low _ w, ?_⟩
  unfold Dev.regWrite; dsimp only
  rw [hf, if_pos rfl, if_neg (by decide), show 0xFFFFFFFF#64 &&& 0xFFFFFFFF#64 = 0xFFFFFFFF#64 from rfl]

theorem cfgIrtDataWrite_refuses {s : State} {a : Agent} {w : BitVec 32} (hm : s.mayWriteSlot a 0 = true) (h : badRoute w) :
    Completes (.cfgIrtDataWrite a w) s (fun t => t.dev.rb rCfgIrtSel 63 = true ∧ t.dev.box.routes = s.dev.box.routes) := by
  refine .of_narrowWrite (o := rCfgIrtData) rfl (by decide) (by decide) hm ?_
  obtain ⟨x, hx, hw⟩ := s.dev.regWrite_cfgIrtData a w
  rw [hw, Dev.routeWrite_bad hx h, State.dev_withDev, Dev.refreshLevels_rb, Dev.refreshLevels_routes]
  exact ⟨Dev.rb_setRb_same _ _ true (by decide), rfl⟩

theorem cfgIrtDataWrite_routes {s : State} {a : Agent} {w : BitVec 32} (hm : s.mayWriteSlot a 0 = true) (h : ¬ badRoute w) :
    Completes (.cfgIrtDataWrite a w) s (fun t => t.dev.route (s.dev.rf rCfgIrtSel 0 12) = w.setWidth 64 &&& routeFields
      ∧ ∀ q, q ≠ s.dev.rf rCfgIrtSel 0 12 → t.dev.route q = s.dev.route q) := by
  refine .of_narrowWrite (o := rCfgIrtData) rfl (by decide) (by decide) hm ?_
  obtain ⟨x, hx, hw⟩ := s.dev.regWrite_cfgIrtData a w
  rw [hw, State.dev_withDev]
  refine ⟨?_, fun q hq => ?_⟩
  · rw [Dev.refreshLevels_route, Dev.routeWrite_good hx h, if_pos rfl]
  · rw [Dev.refreshLevels_route, Dev.routeWrite_good hx h, if_neg hq]

/-! ### Journal selections (R354, R361) -/

/-- Threads, memories, journal selections and markers as they were: what a purge of the buffer keeps where no marker waits. -/
structure Dev.KeepsSels (d e : Dev) : Prop where
  work : d.KeepsWork e
  sels : e.jnl.sels = d.jnl.sels
  markers : e.hub.markers = d.hub.markers

theorem Dev.KeepsSels.refl (d : Dev) : d.KeepsSels d := ⟨.refl d, rfl, rfl⟩
theorem Dev.KeepsSels.trans {d e f : Dev} (h : d.KeepsSels e) (k : e.KeepsSels f) : d.KeepsSels f :=
  ⟨h.work.trans k.work, k.sels.trans h.sels, k.markers.trans h.markers⟩
theorem Dev.KeepsSels.foldl {α : Type} (f : Dev → α → Dev) (h : ∀ (e : Dev) (x : α), e.KeepsSels (f e x)) (l : List α) (d : Dev) :
    d.KeepsSels (l.foldl f d) :=
  foldl_keeps d.KeepsSels f (fun _ _ he => he.trans (h _ _)) l d (.refl d)

theorem Dev.keepsSels_say (d : Dev) (m : OutMsg) : d.KeepsSels (d.say m) := ⟨⟨rfl, rfl⟩, rfl, rfl⟩
theorem Dev.keepsSels_setQueue (d : Dev) (q : Nat) (x : QDesc) : d.KeepsSels (d.setQueue q x) := ⟨⟨rfl, rfl⟩, rfl, rfl⟩
theorem Dev.keepsSels_setReg (d : Dev) (o : Nat) (v : Word) : d.KeepsSels (d.setReg o v) := ⟨⟨rfl, rfl⟩, rfl, rfl⟩
theorem Dev.keepsSels_withRing (d : Dev) (f : Ring → Ring) : d.KeepsSels (d.withRing f) := ⟨⟨rfl, rfl⟩, rfl, rfl⟩
theorem Dev.keepsSels_withJnl (d : Dev) {f : Jnl → Jnl} (h : (f d.jnl).sels = d.jnl.sels) : d.KeepsSels (d.withJnl f) := ⟨⟨rfl, rfl⟩, h, rfl⟩

theorem Dev.keepsSels_writeBack32 (d : Dev) (q : Nat) (x : QDesc) : d.KeepsSels (d.writeBack32 q x) := by
  unfold Dev.writeBack32; dsimp only; split
  · exact (d.keepsSels_say _).trans (Dev.keepsSels_say _ _)
  · exact d.keepsSels_say _
theorem Dev.keepsSels_hostPut (d : Dev) (q : Nat) (bs : List PByte) : d.KeepsSels (d.hostPut q bs) := by
  unfold Dev.hostPut
  exact ((d.keepsSels_say _).trans (Dev.keepsSels_setQueue _ _ _)).trans (Dev.keepsSels_writeBack32 _ _ _)
theorem Dev.keepsSels_noteTaken (d : Dev) (q i : Nat) (own skip : Bool) : d.KeepsSels (d.noteTaken q i own skip) := by
  unfold Dev.noteTaken; dsimp only; split
  · exact d.keepsSels_withJnl rfl
  · exact d.keepsSels_withJnl rfl
theorem Dev.keepsSels_offer (d : Dev) (q : Nat) (u : JUnit) : d.KeepsSels (d.offer q u) := by
  unfold Dev.offer; split
  · exact (d.keepsSels_hostPut q _).trans (Dev.keepsSels_noteTaken _ _ _ _ _)
  · exact ((d.keepsSels_setReg _ _).trans (Dev.keepsSels_setReg _ _ _)).trans (Dev.keepsSels_noteTaken _ _ _ _ _)
theorem Dev.keepsSels_lastOffer (d : Dev) (u : JUnit) : d.KeepsSels (d.lastOffer u) := by
  unfold Dev.lastOffer
  exact .foldl _ (fun e q => .foldl _ (fun f v => f.keepsSels_offer q v) _ e) _ d
theorem Dev.keepsSels_addUnit (d : Dev) (kind seq epoch : Nat) (bs : List Byte) : d.KeepsSels (d.addUnit kind seq epoch bs) := by
  have hroom : ∀ e : Dev, e.KeepsSels (if e.jnl.entryRoom then e else e.setRb rJnlErr 0 true) := fun e => by
    split
    · exact .refl e
    · exact e.keepsSels_setReg _ _
  unfold Dev.addUnit; dsimp only; split
  · exact (d.keepsSels_withJnl rfl).trans (hroom _)
  · exact ((d.keepsSels_withJnl rfl).trans (hroom _)).trans (Dev.keepsSels_withRing _ _)

/-- A purge keeps the work and the selections where no marker waits (R355). -/
theorem Dev.keepsSels_purge {d : Dev} (h : d.hub.markers = []) : d.KeepsSels d.purge := by
  unfold Dev.purge; dsimp only
  have hgone := Dev.KeepsSels.foldl Dev.lastOffer Dev.keepsSels_lastOffer (d.jnl.units.filter d.unitDone) d
  generalize (d.jnl.units.filter d.unitDone).foldl Dev.lastOffer d = e at hgone ⊢
  have hleft := hgone.trans (e.keepsSels_withJnl
    (f := fun j => { j with units := j.units.filter (fun u => !(d.jnl.units.filter d.unitDone).any (fun v => v.id == u.id)) }) rfl)
  generalize e.withJnl (fun j => { j with units := j.units.filter (fun u => !(d.jnl.units.filter d.unitDone).any (fun v => v.id == u.id)) }) = e at hleft ⊢
  have hnotices := hleft.trans (.foldl (fun d bs => if d.jnl.unitRoom then
      (d.withJnl (fun j => { j with notices := j.notices.drop 1 })).addUnit 2 (ofLe (bs.take 8) % 2 ^ 62) (ofLe ((bs.drop 8).take 8)) bs
    else d) (fun f bs => by
      split
      · exact (f.keepsSels_withJnl rfl).trans (Dev.keepsSels_addUnit _ _ _ _ _)
      · exact .refl f) e.jnl.notices e)
  generalize e.jnl.notices.foldl _ e = e at hnotices ⊢
  rw [if_pos (by rw [hnotices.markers, h]; rfl)]
  exact hnotices

/-- A selection word of no queue, of a source that there is not, or of more than 8 bits of the track (R354). -/
def Dev.badSel (d : Dev) (w : BitVec 32) : Prop :=
  isJournalQueue (d.rf rJnlQsel 0 13) = false ∨ w.toNat / 16 % 4 = 3 ∨ 8 < w.toNat / 256 % 16

theorem Dev.regWrite_jnlQdata (d : Dev) (a : Agent) (w : BitVec 32) : d.regWrite a rJnlQdata 0xFFFFFFFF#64 (w.setWidth 64) = d.writeSel w.toNat := by
  have hf : 0xFFFFFFFF#64 &&& ~~~d.frozenBits rJnlQdata = 0xFFFFFFFF#64 := by
    rw [show d.frozenBits rJnlQdata = 0#64 from rfl]; decide
  have hv : fld (merge 0xFFFFFFFF#64 (d.liveValue rJnlQdata) (w.setWidth 64)) 0 32 = w.toNat := by
    rw [fld_of_low (merge_low _ w) (by decide)]
    have := w.isLt
    omega
  unfold Dev.regWrite; dsimp only
  rw [hf, if_neg (by decide), if_pos rfl, if_neg (by decide), hv]

theorem Dev.writeSel_bad {d : Dev} {w : BitVec 32} (h : d.badSel w) : d.writeSel w.toNat = d.setRb rJnlQsel 63 true := by
  unfold Dev.writeSel; dsimp only
  rw [if_pos]
  simpa [Dev.badSel, or_assoc] using h

theorem selFields_toNat (w : BitVec 32) : (word w.toNat &&& selFields).toNat = (w &&& 0xFF0F3F#32).toNat := by
  have hw : (word w.toNat).toNat = w.toNat := by
    have := w.isLt
    rw [word, BitVec.toNat_ofNat]
    omega
  rw [BitVec.toNat_and, BitVec.toNat_and, hw]
  rfl

theorem Dev.writeSel_good {d : Dev} {w : BitVec 32} (h : ¬ d.badSel w) (hm : d.hub.markers = []) :
    d.KeepsWork (d.writeSel w.toNat) ∧ ∀ q, (d.writeSel w.toNat).sel q = if q = d.rf rJnlQsel 0 13 then (w &&& 0xFF0F3F#32).toNat else d.sel q := by
  unfold Dev.writeSel; dsimp only
  rw [if_neg (by simpa [Dev.badSel, or_assoc] using h), selFields_toNat]
  generalize d.rf rJnlQsel 0 13 = n
  have hp := Dev.keepsSels_purge (d := d.withJnl (fun j => { j with sels := SMap.set (fun _ => 0) j.sels n (w &&& 0xFF0F3F#32).toNat })) hm
  refine ⟨Dev.KeepsWork.trans ⟨rfl, rfl⟩ hp.work, fun q => ?_⟩
  rw [Dev.sel, hp.sels]
  exact SMap.get_set _ _ _ _ _

theorem jnlQdataWrite_refuses {s : State} {a : Agent} {w : BitVec 32} (hm : s.mayWriteSlot a 5 = true) (h : s.dev.badSel w) :
    Completes (.jnlQdataWrite a w) s (fun t => s.keeps t ∧ t.dev.rb rJnlQsel 63 = true ∧ t.dev.jnl = s.dev.jnl) := by
  refine .of_narrowWrite (o := rJnlQdata) rfl (by decide) (by decide) hm ?_
  rw [Dev.regWrite_jnlQdata, Dev.writeSel_bad h]
  refine ⟨State.keeps_withDev (s.dev.keepsWork_setRb _ _ _).refreshLevels, ?_, rfl⟩
  rw [State.dev_withDev, Dev.refreshLevels_rb, Dev.rb_setRb_same _ _ true (by decide)]

theorem jnlQdataWrite_selects {s : State} {a : Agent} {w : BitVec 32} (hm : s.mayWriteSlot a 5 = true) (h : ¬ s.dev.badSel w) (hn : s.dev.hub.markers = []) :
    Completes (.jnlQdataWrite a w) s (fun t => s.keeps t ∧ t.dev.sel (s.dev.rf rJnlQsel 0 13) = (w &&& 0xFF0F3F#32).toNat
      ∧ ∀ q, q ≠ s.dev.rf rJnlQsel 0 13 → t.dev.sel q = s.dev.sel q) := by
  refine .of_narrowWrite (o := rJnlQdata) rfl (by decide) (by decide) hm ?_
  obtain ⟨hk, hsel⟩ := Dev.writeSel_good h hn
  rw [Dev.regWrite_jnlQdata]
  refine ⟨State.keeps_withDev hk.refreshLevels, ?_, fun q hq => ?_⟩
  · rw [State.dev_withDev, Dev.refreshLevels_sel, hsel, if_pos rfl]
  · rw [State.dev_withDev, Dev.refreshLevels_sel, hsel, if_neg hq]

end Sys2Proof.Machine

/-! ## The always-on domain and the Interlock -/
namespace Sys2Proof.Machine

open Sys2Proof

/-- A command about the device completes, with what it makes of it. -/
theorem Completes.of_onDev {i : Instr} {s : State} {P : State → Prop} {f : Dev → Dev} (hi : exec i s = onDev s f) (hP : P (s.withDev (f s.dev))) :
    Completes i s P := ⟨_, hi, hP⟩

/-! ### RWS_APPLY (R443) -/

/-- The always-on value is `v`, and the copy in control space too where there is power. -/
def Dev.cautionTaken (d : Dev) (v : Word) : Dev :=
  if d.box.power = .on then (d.withBox (fun b => { b with caution := v, rws := [] })).setReg rPwrCaution v
  else d.withBox (fun b => { b with caution := v, rws := [] })

theorem exec_rwsApply (s : State) : exec .rwsApply s =
    onDev s (fun d => d.cautionTaken ((SMap.get (fun _ => (none : Option Word)) d.box.rws rPwrCaution).getD d.box.caution)) := rfl

theorem rwsApply_takes {s : State} {v : Word} (h : SMap.get (fun _ => (none : Option Word)) s.dev.box.rws rPwrCaution = some v) :
    Completes .rwsApply s (fun t => s.keeps t ∧ t.dev.box.caution = v ∧ t.dev.box.rws = [] ∧ (s.dev.box.power = .on → t.dev.reg rPwrCaution = v)) := by
  refine .of_onDev (exec_rwsApply s) ?_
  rw [h, Option.getD_some]
  unfold Dev.cautionTaken
  split
  · exact ⟨State.keeps_withDev ⟨rfl, rfl⟩, rfl, rfl, fun _ => Dev.reg_setReg_same _ _ _⟩
  · next hoff => exact ⟨State.keeps_withDev ⟨rfl, rfl⟩, rfl, rfl, fun hon => absurd hon hoff⟩

/-! ### A failure of the Interlock (R439, R451) -/

/-- `e` records a failure with `cause` on the register at `q`, of which it holds no value. -/
structure Dev.IlkFailed (d e : Dev) (q cause : Nat) : Prop where
  ilk : ∀ k ∈ e.box.ilk, k.off ≠ q
  count : e.rf rCfgIlk 48 16 = sat 65535 (d.rf rCfgIlk 48 16 + 1)
  set : e.rb rCfgIlk 0 = true
  first : d.rb rCfgIlk 0 = false → e.rf rCfgIlk 1 3 = cause ∧ e.rf rCfgIlk 6 23 = q / 8

/-- The device without a value held for the register at `o`. -/
def Dev.ilkDropped (d : Dev) (o : Nat) : Dev := d.withBox (fun b => { b with ilk := b.ilk.filter (fun h => h.off ≠ o) })

theorem Dev.off_of_mem_ilkDropped {d : Dev} {o : Nat} {k : Held} (h : k ∈ (d.ilkDropped o).box.ilk) : k.off ≠ o := by
  simpa using (List.mem_filter.1 h).2

/-- The cause and the offset of a first failure. -/
def Dev.ilkFirst (d : Dev) (o cause : Nat) : Dev :=
  if d.rb rCfgIlk 0 then d else (d.setRf rCfgIlk 6 23 (o / 8)).setRf rCfgIlk 1 3 cause

theorem Dev.ilkFail_eq (d : Dev) (o cause : Nat) :
    d.ilkFail o cause = (((d.ilkDropped o).count rCfgIlk 48 16).ilkFirst o cause).setRb rCfgIlk 0 true := rfl

theorem Dev.ilkFirst_count (d : Dev) (o cause : Nat) : (d.ilkFirst o cause).rf rCfgIlk 48 16 = d.rf rCfgIlk 48 16 := by
  unfold Dev.ilkFirst; split
  · rfl
  · rw [Dev.rf_setRf_apart _ _ _ (by omega), Dev.rf_setRf_apart _ _ _ (by omega)]
theorem Dev.ilkFirst_fields {d : Dev} {o cause : Nat} (hd : d.rb rCfgIlk 0 = false) (hc : cause < 8) (ho : o < 2 ^ 26) :
    (d.ilkFirst o cause).rf rCfgIlk 1 3 = cause ∧ (d.ilkFirst o cause).rf rCfgIlk 6 23 = o / 8 := by
  unfold Dev.ilkFirst
  rw [hd, if_neg (by decide)]
  constructor
  · exact (Dev.rf_setRf_same _ _ _ (by decide)).trans (Nat.mod_eq_of_lt hc)
  · rw [Dev.rf_setRf_apart _ _ _ (by omega), Dev.rf_setRf_same _ _ _ (by decide), Nat.mod_eq_of_lt (by omega)]
theorem Dev.ilkFirst_box (d : Dev) (o cause : Nat) : (d.ilkFirst o cause).box = d.box := by
  unfold Dev.ilkFirst; split <;> rfl
theorem Dev.keepsWork_ilkFirst (d : Dev) (o cause : Nat) : d.KeepsWork (d.ilkFirst o cause) := by
  unfold Dev.ilkFirst; split
  · exact .refl d
  · exact ⟨rfl, rfl⟩
theorem Dev.ilkFirst_reg_ne (d : Dev) (o cause : Nat) {q : Nat} (h : q ≠ rCfgIlk) : (d.ilkFirst o cause).reg q = d.reg q := by
  unfold Dev.ilkFirst; split
  · rfl
  · rw [Dev.reg_setRf_ne _ _ _ _ h, Dev.reg_setRf_ne _ _ _ _ h]

theorem Dev.ilkFailed_ilkFail (d : Dev) {o cause : Nat} (hc : cause < 8) (ho : o < 2 ^ 26) : d.IlkFailed (d.ilkFail o cause) o cause := by
  rw [Dev.ilkFail_eq]
  have hilk : ∀ k ∈ ((d.ilkDropped o).count rCfgIlk 48 16).box.ilk, k.off ≠ o :=
    fun k hk => Dev.off_of_mem_ilkDropped hk
  have hcount := (d.ilkDropped o).rf_count_same rCfgIlk (lo := 48) (n := 16) 1 (by decide)
  have hbit := (d.ilkDropped o).rb_count_apart rCfgIlk (lo := 48) (n := 16) (i := 0) 1 (.inl (by decide))
  generalize (d.ilkDropped o).count rCfgIlk 48 16 = e at hilk hcount hbit ⊢
  refine ⟨?_, ?_, Dev.rb_setRb_same _ _ true (by decide), fun h => ?_⟩
  · show ∀ k ∈ (e.ilkFirst o cause).box.ilk, _
    rw [Dev.ilkFirst_box]; exact hilk
  · rw [Dev.rf_setRb_apart _ _ true (.inr (by decide)), Dev.ilkFirst_count, hcount]; rfl
  · rw [Dev.rf_setRb_apart _ _ true (.inr (by decide)), Dev.rf_setRb_apart _ _ true (.inr (by decide))]
    exact Dev.ilkFirst_fields (hbit.trans h) hc ho

theorem Dev.keepsWork_ilkFail (d : Dev) (o cause : Nat) : d.KeepsWork (d.ilkFail o cause) := by
  rw [Dev.ilkFail_eq]
  exact (Dev.KeepsWork.trans (e := (d.ilkDropped o).count rCfgIlk 48 16) ⟨rfl, rfl⟩ (Dev.keepsWork_ilkFirst _ o cause)).trans (Dev.keepsWork_setRb _ _ _ _)

theorem Dev.ilkFail_reg_ne (d : Dev) (o cause : Nat) {q : Nat} (h : q ≠ rCfgIlk) : (d.ilkFail o cause).reg q = d.reg q := by
  rw [Dev.ilkFail_eq, Dev.reg_setRb_ne _ _ _ h, Dev.ilkFirst_reg_ne _ _ _ h, Dev.reg_count_ne _ _ _ _ h]; rfl

theorem Dev.IlkFailed.refreshLevels {d e : Dev} {q cause : Nat} (h : d.IlkFailed e q cause) : d.IlkFailed e.refreshLevels q cause :=
  ⟨h.ilk, h.count, h.set, h.first⟩

theorem rwiReg_lt (rst : Bool) : rwiReg rst < 2 ^ 26 := by cases rst <;> decide

theorem interlockTimeout_fails {s : State} {rst : Bool} {h : Held} (hi : s.dev.box.ilk = [h]) (ho : h.off = rwiReg rst) :
    Completes (.interlockTimeout rst) s (fun t => s.keeps t ∧ s.dev.IlkFailed t.dev (rwiReg rst) 2) := by
  refine .of_onDev rfl ?_
  rw [if_pos (by simp [hi, ho]), State.dev_withDev]
  exact ⟨State.keeps_withDev (s.dev.keepsWork_ilkFail _ _), s.dev.ilkFailed_ilkFail (by decide) (rwiReg_lt rst)⟩

theorem interlockTimeout_idle {s : State} {rst : Bool} (hi : s.dev.box.ilk = []) : exec (.interlockTimeout rst) s = .next s := by
  show onDev s _ = _
  unfold onDev
  rw [hi]; rfl

/-! ### The two writes (R439) -/

/-- A first write holds its value. -/
theorem Dev.ilkWrite_first {d : Dev} {a : Agent} {o : Nat} (v : Word) (h : d.box.ilk = []) :
    d.ilkWrite a o false true v = d.withBox (fun b => { b with ilk := b.ilk ++ [⟨a, o, v⟩] }) := by
  unfold Dev.ilkWrite
  simp [h]

/-- The complement of the value that the same agent wrote: the value takes effect. -/
theorem Dev.ilkWrite_complement {d : Dev} {a : Agent} {o : Nat} {v : Word} (h : d.box.ilk = [⟨a, o, v⟩]) :
    d.ilkWrite a o true true (~~~v) = (d.ilkDropped o).applyRwi o v := by
  unfold Dev.ilkWrite Dev.ilkDropped
  simp [h]
theorem Dev.ilkWrite_complement_unheld {d : Dev} {a : Agent} {o : Nat} (v : Word) (h : d.box.ilk = []) : d.ilkWrite a o true true v = d.ilkFail o 3 := by
  unfold Dev.ilkWrite
  simp [h]
theorem Dev.ilkWrite_other_agent {d : Dev} {a : Agent} {x : Held} (v : Word) (h : d.box.ilk = [x]) (ha : x.agent ≠ a) (complement wide : Bool) :
    d.ilkWrite a x.off complement wide v = d.ilkFail x.off 4 := by
  unfold Dev.ilkWrite
  simp [h, ha]

theorem interlockValueWrite_holds {s : State} {a : Agent} {rst : Bool} (v : Word) (hm : s.mayWriteSlot a (if rst then 10 else 6) = true)
    (hi : s.dev.box.ilk = []) : Completes (.interlockValueWrite a rst v) s (fun t =>
      s.keeps t ∧ t.dev.box.ilk = [⟨a, rwiReg rst, v⟩] ∧ ∀ q, t.dev.reg q = s.dev.reg q) := by
  obtain ⟨ha, hr, hw⟩ := State.mayWriteSlot_iff.1 hm
  have hrow : liveRow (rwiReg rst) (if rst then 10 else 6) = true := by cases rst <;> decide
  refine .of_onUnit rfl ha ?_
  rw [Dev.ctrlWrite_wide v hrow hr hw, Dev.placeWrite_guarded _ a true _ v hrow (by cases rst <;> decide) (by cases rst <;> decide)]
  rw [Dev.ilkWrite_first v hi]
  refine ⟨State.keeps_withDev (s.dev.keepsWork_withBox _).refreshLevels, ?_, fun q => rfl⟩
  show s.dev.box.ilk ++ _ = _
  rw [hi]; rfl

/-- A command whose second write ends the Interlock procedure on LL_BYPASS. -/
theorem Completes.of_complementWrite {i : Instr} {s : State} {a : Agent} {v : Word} {P : State → Prop}
    (hi : exec i s = onUnit (agentExists a) s (fun d => d.complementWrite a false v)) (hm : s.mayWriteSlot a 6 = true)
    (hP : P (s.withDev (s.dev.ilkWrite a rLlBypass true true (~~~v)).refreshLevels)) : Completes i s P := by
  obtain ⟨ha, hr, hw⟩ := State.mayWriteSlot_iff.1 hm
  refine .of_onUnit hi ha ?_
  unfold Dev.complementWrite
  rw [Dev.ctrlWrite_wide (n := 6) _ (by decide) hr hw, Dev.placeWrite_complement (n := 6) (p := rLlBypass) _ a true _ _ (by decide) (by decide)]
  exact hP

theorem leave_unheld {s : State} {a : Agent} (hm : s.mayWriteSlot a 6 = true) (hi : s.dev.box.ilk = []) :
    Completes (.leave a) s (fun t => s.dev.IlkFailed t.dev rLlBypass 3 ∧ t.dev.reg rLlBypass = s.dev.reg rLlBypass) := by
  refine .of_complementWrite rfl hm ?_
  rw [Dev.ilkWrite_complement_unheld _ hi, State.dev_withDev]
  exact ⟨(s.dev.ilkFailed_ilkFail (by decide) (by decide)).refreshLevels, s.dev.ilkFail_reg_ne _ _ (by decide)⟩

theorem leave_other_agent {s : State} {a : Agent} {h : Held} (hm : s.mayWriteSlot a 6 = true) (hi : s.dev.box.ilk = [h]) (ho : h.off = rLlBypass)
    (ha : h.agent ≠ a) : Completes (.leave a) s (fun t => s.dev.IlkFailed t.dev rLlBypass 4) := by
  refine .of_complementWrite rfl hm ?_
  rw [← ho, Dev.ilkWrite_other_agent _ hi ha, State.dev_withDev]
  exact (s.dev.ilkFailed_ilkFail (by decide) (ho ▸ by decide)).refreshLevels

end Sys2Proof.Machine

/-! ## LEAVE and FORCE, and the control commands together -/
namespace Sys2Proof.Machine

open Sys2Proof

/-! ### LL_BYPASS takes effect (R400) -/

/-- A change of the ring's state leaves registers and Signal Box. -/
theorem Dev.setRState_keeps (d : Dev) (r : RState) : (d.setRState r).ctl = d.ctl ∧ (d.setRState r).box = d.box := by
  unfold Dev.setRState Dev.memberEdge Dev.edge; split
  · exact ⟨rfl, rfl⟩
  · split <;> exact ⟨rfl, rfl⟩
theorem Dev.setRState_state (d : Dev) (r : RState) : (d.setRState r).ring.state = r := by
  unfold Dev.setRState Dev.memberEdge Dev.edge; split
  · next h => exact h
  · split <;> rfl
theorem Dev.enterJoining_keeps (d : Dev) : d.enterJoining.ctl = d.ctl ∧ d.enterJoining.box = d.box := by
  unfold Dev.enterJoining; split
  · exact d.setRState_keeps _
  · exact ⟨rfl, rfl⟩

/-- OUT is reached with the Signal Box as it was, with FORCE as it was, and with LEAVE clear where it was clear. -/
theorem Dev.enterOut_keeps {d : Dev} (h : d.rb rLlBypass 1 = false) :
    d.enterOut.box = d.box ∧ d.enterOut.ring.state = .out ∧ d.enterOut.rb rLlBypass 0 = d.rb rLlBypass 0 ∧ d.enterOut.rb rLlBypass 1 = false := by
  unfold Dev.enterOut; dsimp only; split
  · next ho => exact ⟨rfl, ho, rfl, h⟩
  · have hl := d.steady_loseAll d.tt.ringId
    generalize d.loseAll d.tt.ringId false = e at hl ⊢
    obtain ⟨hctl, hbox⟩ := e.setRState_keeps .out
    have hst := e.setRState_state .out
    generalize e.setRState .out = f at hctl hbox hst ⊢
    have hreg : f.reg rLlBypass = d.reg rLlBypass := (congrArg (fun m => SMap.get regReset m rLlBypass) hctl).trans (hl.reg _ (by decide))
    refine ⟨hbox.trans hl.box, hst, ?_, Dev.rb_setRb_same _ _ false (by decide)⟩
    rw [Dev.rb_setRb_apart _ _ false (by decide)]
    exact Dev.rb_congr hreg 0

/-- An interlocked value of LL_BYPASS without FORCE, where FORCE was clear or the device joins now: the register takes the value. -/
theorem Dev.applyRwi_unforced (d : Dev) {v : Word} (h : bit v 0 = false) :
    (d.applyRwi rLlBypass v).box = d.box ∧ (d.applyRwi rLlBypass v).reg rLlBypass = v &&& 3#64 := by
  unfold Dev.applyRwi; dsimp only
  rw [if_pos rfl, h, if_neg (by decide)]
  split
  · obtain ⟨hctl, hbox⟩ := (d.setReg rLlBypass (v &&& 3#64)).enterJoining_keeps
    exact ⟨hbox, (congrArg (fun m => SMap.get regReset m rLlBypass) hctl).trans (Dev.reg_setReg_same _ _ _)⟩
  · exact ⟨rfl, Dev.reg_setReg_same _ _ _⟩

/-- FORCE is set: the device goes OUT. -/
theorem Dev.applyRwi_forced (d : Dev) :
    (d.applyRwi rLlBypass 1#64).box = d.box ∧ (d.applyRwi rLlBypass 1#64).ring.state = .out
    ∧ (d.applyRwi rLlBypass 1#64).rb rLlBypass 0 = true ∧ (d.applyRwi rLlBypass 1#64).rb rLlBypass 1 = false := by
  unfold Dev.applyRwi; dsimp only
  rw [if_pos rfl, if_pos (by decide)]
  obtain ⟨hbox, hst, hforce, hleave⟩ := Dev.enterOut_keeps (Dev.rb_setRb_same (d.setReg rLlBypass (1#64 &&& 3#64)) rLlBypass false (i := 1) (by decide))
  refine ⟨hbox, hst, hforce.trans ?_, hleave⟩
  rw [Dev.rb_setRb_apart _ _ false (by decide), Dev.rb, Dev.reg_setReg_same]
  decide

/-- FORCE is cleared in service: a device that was OUT is JOINING. -/
theorem Dev.applyRwi_unforces {d : Dev} (hf : d.rb rLlBypass 0 = true) (ho : d.ring.state = .out) (hs : d.inService = true) :
    (d.applyRwi rLlBypass 0#64).ring.state = .joining := by
  have hs' : (d.setReg rLlBypass (0#64 &&& 3#64)).inService = true := by
    rw [← hs]
    unfold Dev.inService Dev.phase
    rw [Dev.rf_congr (show (d.setReg rLlBypass (0#64 &&& 3#64)).reg rSbxStart = d.reg rSbxStart from (Dev.reg_setReg _ _ _ _).trans (if_neg (by decide)))]
    rfl
  have hclear : (d.setReg rLlBypass (0#64 &&& 3#64)).rb rLlBypass 0 = false := by
    rw [Dev.rb, Dev.reg_setReg_same]; decide
  unfold Dev.applyRwi; dsimp only
  rw [if_pos rfl, if_neg (by decide), hf, hs', if_pos (by decide), Dev.enterJoining, if_pos ⟨ho, hclear⟩]
  exact Dev.setRState_state _ _

/-! ### The second write on LL_BYPASS (R439, R440) -/

theorem Dev.ilkDropped_ilk {d : Dev} {x : Held} (h : d.box.ilk = [x]) : (d.ilkDropped x.off).box.ilk = [] := by
  unfold Dev.ilkDropped
  rw [Dev.withBox_own]
  simp [h]

theorem leave_takes {s : State} {a : Agent} (hm : s.mayWriteSlot a 6 = true) (hi : s.dev.box.ilk = [⟨a, rLlBypass, 2#64⟩]) :
    Completes (.leave a) s (fun t => t.dev.box.ilk = [] ∧ t.dev.reg rLlBypass = 2#64) := by
  refine .of_complementWrite rfl hm ?_
  have hempty := Dev.ilkDropped_ilk hi
  obtain ⟨hbox, hreg⟩ := (s.dev.ilkDropped rLlBypass).applyRwi_unforced (v := 2#64) (by decide)
  rw [show (2 : Word) = 2#64 from rfl, Dev.ilkWrite_complement hi, State.dev_withDev, Dev.refreshLevels_ilk, Dev.refreshLevels_reg, hbox, hreg]
  exact ⟨hempty, by decide⟩

theorem force_takes {s : State} {a : Agent} (hm : s.mayWriteSlot a 6 = true) (hi : s.dev.box.ilk = [⟨a, rLlBypass, 1#64⟩]) :
    Completes (.force a true) s (fun t =>
      t.dev.box.ilk = [] ∧ t.dev.ring.state = .out ∧ t.dev.rb rLlBypass 0 = true ∧ t.dev.rb rLlBypass 1 = false) := by
  refine .of_complementWrite rfl hm ?_
  have hempty := Dev.ilkDropped_ilk hi
  obtain ⟨hbox, hst, hforce, hleave⟩ := (s.dev.ilkDropped rLlBypass).applyRwi_forced
  rw [show word true.toNat = 1#64 from rfl, Dev.ilkWrite_complement hi, State.dev_withDev, Dev.refreshLevels_ilk, Dev.refreshLevels_ring,
    Dev.refreshLevels_rb, Dev.refreshLevels_rb, hbox]
  exact ⟨hempty, hst, hforce, hleave⟩

theorem force_clears {s : State} {a : Agent} (hm : s.mayWriteSlot a 6 = true) (hi : s.dev.box.ilk = [⟨a, rLlBypass, 0#64⟩])
    (hf : s.dev.rb rLlBypass 0 = true) (ho : s.dev.ring.state = .out) (hs : s.dev.inService = true) : Completes (.force a false) s (fun t =>
      t.dev.box.ilk = [] ∧ t.dev.ring.state = .joining ∧ t.dev.reg rLlBypass = 0#64) := by
  refine .of_complementWrite rfl hm ?_
  have hempty := Dev.ilkDropped_ilk hi
  obtain ⟨hbox, hreg⟩ := (s.dev.ilkDropped rLlBypass).applyRwi_unforced (v := 0#64) (by decide)
  have hst := Dev.applyRwi_unforces (d := s.dev.ilkDropped rLlBypass) hf ho hs
  rw [show word false.toNat = 0#64 from rfl, Dev.ilkWrite_complement hi, State.dev_withDev, Dev.refreshLevels_ilk, Dev.refreshLevels_ring,
    Dev.refreshLevels_reg, hbox, hreg]
  exact ⟨hempty, hst, by decide⟩

/-! ### The statement -/

/-- Settles O54: each command is a write that its agent may make, followed to its register; what it records is read back there. LEAVE and FORCE
write the complement, and the cause of an Interlock failure is the first that applies (assumption 76); a device whose FORCE is cleared in
service joins (assumption 88). -/
theorem controlCommandsTakeEffect : Obligations.ControlCommandsTakeEffect := by
  intro s a v w c tr rst h
  refine ⟨fun hm => ⟨cfgLockWrite_sets v hm, cfgIrtDataWrite_refuses hm, cfgIrtDataWrite_routes hm, cfgSwi_makes_edges w hm⟩,
    snpGo_sets,
    fun hm => ⟨yrdForbidWrite_buffers w hm, yrdForbidWrite_refuses w hm, yrdSnapGo_starts v hm,
      fun hq => ⟨pinCommand_queues c tr hm hq, unpinCommand_queues tr hm hq⟩, pinCommand_full c tr hm⟩,
    fun hm => ⟨jnlQdataWrite_refuses hm, jnlQdataWrite_selects hm⟩, rwsApply_takes, fun hi ho => ?_, interlockTimeout_idle,
    interlockValueWrite_holds v, fun hm => ⟨leave_takes hm, force_takes hm, force_clears hm, fun hi => ?_, fun hi ho ha => ?_⟩⟩
  · obtain ⟨t, ht, hk, hf⟩ := interlockTimeout_fails hi ho
    exact ⟨t, ht, hk, hf.ilk, hf.count, hf.set, hf.first⟩
  · obtain ⟨t, ht, hf, hreg⟩ := leave_unheld hm hi
    exact ⟨t, ht, ⟨hf.ilk, hf.count, hf.set, hf.first⟩, hreg⟩
  · obtain ⟨t, ht, hf⟩ := leave_other_agent hm hi ho ha
    exact ⟨t, ht, hf.ilk, hf.count, hf.set, hf.first⟩

end Sys2Proof.Machine

/-! ## Strings and editing: a cluster that the map lists twice

The statements of chapter 6 speak of every state, and so also of one whose map of clusters is not in canonical form. Every accessor reads the first
entry of a cluster, but `Dev.cachedAny` looks through all of them; the second entry goes when the cluster is next written, which the use of an HBM
line does (`Dev.lruHit`, R302). A line that only such an entry names is then no longer a line that some store holds, and where its stored codeword is
uncorrectable every later read delivers it poisoned (R406): the second read of a step does not find what the first state held. The map is not in the
canonical form of `SMap.wf`, and no premise of the three statements asks for that form. -/
namespace Sys2Proof.Machine

open Sys2Proof

/-! ### What the end of an instruction leaves alone -/

/-- `f` does not depend on PC, the loop levels, the mode-change shadow or a resume state: what the end of an instruction may write (R140, R146, R152). -/
def KeptByRetire {α : Type} (f : Thread → α) : Prop :=
  ∀ t pc l0 l1 l2 sh mc, f { t with pc := pc, lp0 := l0, lp1 := l1, lp2 := l2, shadow := sh, mc := mc } = f t

theorem KeptByRetire.setLoopLevel {α : Type} {f : Thread → α} (hf : KeptByRetire f) (t : Thread) (i : Nat) (l : LoopLevel) :
    f (t.setLoopLevel i l) = f t := by
  unfold Thread.setLoopLevel; split
  · exact hf t t.pc l t.lp1 t.lp2 t.shadow t.mc
  · split
    · exact hf t t.pc t.lp0 l t.lp2 t.shadow t.mc
    · exact hf t t.pc t.lp0 t.lp1 l t.shadow t.mc

theorem loopStep_some {t u : Thread} {i : Nat} {s : Word} {b : Bool} (h : loopStep t i s = some (u, b)) : ∃ l, u = t.setLoopLevel i l := by
  unfold loopStep at h; dsimp only at h; split at h
  · cases h; exact ⟨_, rfl⟩
  · cases h

theorem KeptByRetire.loopBack {α : Type} {f : Thread → α} (hf : KeptByRetire f) (n : Nat) (t : Thread) (s : Word) : f (loopBack n t s) = f t := by
  induction n generalizing t with
  | zero => exact hf t s t.lp0 t.lp1 t.lp2 t.shadow t.mc
  | succ n ih =>
    unfold Machine.loopBack; split
    · next h =>
      obtain ⟨l, rfl⟩ := loopStep_some h
      exact (hf (t.setLoopLevel n l) _ _ _ _ _ _).trans (hf.setLoopLevel t n l)
    · next h =>
      obtain ⟨l, rfl⟩ := loopStep_some h
      exact (ih _).trans (hf.setLoopLevel t n l)
    · exact ih t

theorem KeptByRetire.retire {α : Type} {f : Thread → α} (hf : KeptByRetire f) (t : Thread) (s : Word) : f (t.retire s) = f t := by
  have hend : ∀ u : Thread, f { u.tickShadow with mc := none } = f u := fun u => by
    unfold Thread.tickShadow; split <;> exact hf u u.pc u.lp0 u.lp1 u.lp2 _ _
  unfold Thread.retire; dsimp only
  rw [hend]; split
  · exact hf.loopBack 3 t s
  · exact hf t s t.lp0 t.lp1 t.lp2 t.shadow t.mc

@[simp] theorem Thread.retire_sb (t : Thread) (s : Word) : (t.retire s).sb = t.sb := KeptByRetire.retire (fun _ _ _ _ _ _ _ => rfl) t s
@[simp] theorem Thread.retire_fl (t : Thread) (s : Word) : (t.retire s).fl = t.fl := KeptByRetire.retire (fun _ _ _ _ _ _ _ => rfl) t s

theorem Thread.writes.sb {t w : Thread} {ws : List (GReg × Reg)} (h : t.writes ws w) : w.sb = t.sb := by
  rw [← h.1]
theorem Thread.writes.fl {t w : Thread} {ws : List (GReg × Reg)} (h : t.writes ws w) : w.fl = t.fl := by
  rw [← h.1]

/-! ### The counterexample -/

/-- Nine upsets in the codeword of the HBM line at 0x8000, which the code cannot correct; and a map of clusters that lists cluster 0 twice, the second
time with that line in its store. Byte 0x8001 holds 1. -/
def twiceDev : Dev :=
  { Dev.reset with
    clu := [(0, { Cluster.reset with released := true }), (0, { Cluster.reset with lines := [⟨0x200, 0, false, none⟩] })]
    box := { SigBox.reset with power := .on }
    mem := { Mem.reset with bytes := [(0x8001, 1)], hbmUpset := [(0x200, List.range 9)] } }

/-- Thread 0 at supervisor level with key 0, and pointers into and out of that line: X1 at 0xC000, X2 at 0x8000, X4 at 0x8001; X3 counts `n`. -/
def twiceThread (n : Nat) (es : Word) : Thread :=
  { Thread.reset with
    run := .running, pc := 0x500000000400, ts := 1, es := ⟨es, false⟩
    regs := [(1, ⟨0xC000, false⟩), (2, ⟨0x8000, false⟩), (3, ⟨word n, false⟩), (4, ⟨0x8001, false⟩)] }

def twiceState (n : Nat) (es : Word) : State := ⟨twiceDev.setThread 0 (twiceThread n es), []⟩

/-- What `f` finds in thread 0 where a command completes. -/
def seenAfter {α : Type} (f : Thread → α) (o : Host.Outcome State Fault Refusal) : Option α :=
  match o with
  | .next u => some (f (u.thread 0))
  | _ => none

theorem Completes.seenAfter {α : Type} {i : Instr} {s : State} {P : State → Prop} (h : Completes i s P) (f : Thread → α) :
    ∃ u, Machine.seenAfter f (exec i s) = some (f (u.thread 0)) ∧ P u := by
  obtain ⟨u, hu, hP⟩ := h
  exact ⟨u, by rw [hu]; rfl, hP⟩

/-- Whether a byte of the store buffer carries a mark. -/
def Thread.sbMarked (t : Thread) : Bool := t.sb.any (fun e => anyPoison e.data)

/-- MOVS of two bytes of the line: the second is read with a mark. -/
theorem movs_twice : seenAfter Thread.sbMarked (exec (.movs 0 1 2 3 false 0 1) (twiceState 2 0)) = some true := by decide +kernel
/-- SCAN of two bytes of the line: FL takes a mark. -/
theorem scan_twice : seenAfter (fun t => t.fl.poison) (exec (.scan 0 2 3 false 5 1) (twiceState 2 0)) = some true := by decide +kernel
/-- EDIT with its pattern byte and its digit in the line: FL takes a mark. -/
theorem edit_twice : seenAfter (fun t => t.fl.poison) (exec (.edit 0 1 2 3 4 0 1) (twiceState 1 0x80)) = some true := by decide +kernel

/-- Refutes O37: where the map of clusters lists cluster 0 twice, the first byte that MOVS reads of an HBM line takes from the line what kept it from
being delivered poisoned, and the second byte is stored with a mark that it had not. -/
theorem not_stringMovesGoForward : ¬ Obligations.StringMovesGoForward := by
  unfold Obligations.StringMovesGoForward
  intro h
  obtain ⟨-, hmove⟩ := h (s := twiceState 2 0) (g := 0) (rd := 1) (rs := 2) (rn := 3) (rt := 4) (p := 0xC000) (q := 0x8000) (tb := 0x8001) (cnt := 2)
    (k := 2) (byte := 0) (by decide +kernel) (by decide +kernel) (by decide +kernel) (by decide) (by decide) (by decide)
  have hstore : (twiceState 2 0).mayAccess 0 .store 0xC000 2 := by unfold State.mayAccess; decide +kernel
  have hload : (twiceState 2 0).mayAccess 0 .load 0x8000 2 := by unfold State.mayAccess; decide +kernel
  obtain ⟨-, hcopy⟩ := hmove (by decide) rfl hstore (by decide +kernel)
  obtain ⟨⟨data, hlen, hdata, hends⟩, -⟩ :=
    hcopy (by decide +kernel) (by decide) (by decide) (by decide) hload (by decide +kernel) (.inl (by decide))
  have hclean : data = [⟨0, false⟩, ⟨1, false⟩] := by
    have h0 : data[0]? = some ⟨0, false⟩ := (hdata 0 (by decide)).trans ((if_neg (by decide)).trans (by decide +kernel))
    have h1 : data[1]? = some ⟨1, false⟩ := (hdata 1 (by decide)).trans ((if_neg (by decide)).trans (by decide +kernel))
    match data, hlen with
    | [x, y], _ => cases h0; cases h1; rfl
  obtain ⟨u, hseen, w, hw, hu, -, -⟩ := hends.seenAfter Thread.sbMarked
  have hsb : (u.thread 0).sb = ((twiceState 2 0).thread 0).sb ++ ((twiceState 2 0).thread 0).entriesOf 0xC000 data := by
    rw [hu, if_pos (by decide), Thread.retire_sb, hw.sb]; rfl
  rw [movs_twice, Thread.sbMarked, hsb, hclean] at hseen
  exact absurd hseen (by decide +kernel)

/-- Refutes O38: in the same state SCAN meets a mark on its second byte, which had none, and poisons FL. -/
theorem not_stringSearchesStopAtTheFirst : ¬ Obligations.StringSearchesStopAtTheFirst := by
  unfold Obligations.StringSearchesStopAtTheFirst
  intro h
  have hload : (twiceState 2 0).mayAccess 0 .load 0x8000 2 := by unfold State.mayAccess; decide +kernel
  obtain ⟨-, hscan, -⟩ := h (s := twiceState 2 0) (g := 0) (rd := 1) (rs := 2) (rn := 3) (rt := 4) (p := 0xC000) (q := 0x8000) (tb := 0x8001) (cnt := 2)
    (j := 2) (n := 1) (ne := false) (byte := 5) (by decide +kernel) (by decide +kernel) (by decide +kernel) (by decide) (by decide) (by decide)
    (by decide) (by decide) ⟨hload, by decide +kernel, .inl (by decide), by decide +kernel⟩
  obtain ⟨hends, -⟩ := hscan (by decide +kernel)
  obtain ⟨u, hseen, w, hw, hu, -, -⟩ := (hends (by decide)).seenAfter (fun t => t.fl.poison)
  rw [scan_twice, hu, Thread.retire_fl, hw.fl] at hseen
  cases hseen

/-- Refutes O39: in the same state EDIT reads its pattern byte, then meets a mark on the digit beside it, which had none, and poisons ES and FL. -/
theorem not_editWritesOneBytePerPatternByte : ¬ Obligations.EditWritesOneBytePerPatternByte := by
  unfold Obligations.EditWritesOneBytePerPatternByte
  intro h
  have hpattern : (twiceState 1 0x80).mayAccess 0 .load 0x8001 1 := by unfold State.mayAccess; decide +kernel
  have hstore : (twiceState 1 0x80).mayAccess 0 .store 0xC000 1 := by unfold State.mayAccess; decide +kernel
  have hdigit : (twiceState 1 0x80).mayAccess 0 .load 0x8000 1 := by unfold State.mayAccess; decide +kernel
  have hends := h (s := twiceState 1 0x80) (g := 0) (rd := 1) (rs := 2) (rn := 3) (rt := 4) (rk := 5) (p := 0xC000) (q := 0x8000) (pat := 0x8001)
    (e := 0x80) (old := 0) (c := 1) (b := 0) (sym := 0) (loc := false) (n := 1) (by decide +kernel) (by decide) (by decide) (by decide)
    (by decide +kernel) (by decide +kernel) (by decide +kernel) (by decide +kernel) (by decide +kernel) (by decide +kernel) (by decide +kernel)
    hpattern hstore (fun _ => ⟨by decide +kernel, by decide +kernel, hdigit, by decide +kernel, .inl (by decide)⟩)
    (fun hbefore => absurd hbefore (by decide +kernel)) (by decide +kernel) (by decide +kernel) (.inl (by decide))
  obtain ⟨u, hseen, f, w, hw, ⟨hu, -, -⟩, -⟩ := hends.seenAfter (fun t => t.fl.poison)
  have hseen := edit_twice.symm.trans hseen
  rw [hu, Thread.retire_fl, hw.fl] at hseen
  cases hseen

end Sys2Proof.Machine
